-- ==== Sys2Proof/Word.lean ====
section
/-! DEFINITION. The words that pass the block's ports (spec 00_scope.md R7, 10_state.md R32, 30_encoding.md R61). -/

namespace Sys2Proof

/-- A byte: 8 bits, bit 7 the most significant, unsigned (R7, `BYTE_W`). -/
abbrev Byte := BitVec 8

/-- The operation word `OPW`: `rst` on bit 11, `resync` on bit 10, `in_valid` on bit 9, `st` on bit 8, `in_byte` on
bits 7..0 (R61). -/
abbrev Opw := BitVec 12

/-- A frame of exactly `FRAME_LEN` = 27 bytes, payload index 0 first (R6, R8, R41). -/
abbrev Frame := Vector Byte 27

/-- The inputs sampled at one rising edge of `clk` (R32): the `Input` tuple of the step function (R12). -/
structure Input where
  /-- `rst`: synchronous reset, active high. -/
  rst : Bool
  /-- `resync`: decoder reset to `WAITING_FOR_START`. -/
  resync : Bool
  /-- `in_valid`: `in_byte` carries a received byte this cycle. -/
  inValid : Bool
  /-- `in_byte`: the received byte. -/
  inByte : Byte
  deriving DecidableEq, Repr, Inhabited

end Sys2Proof
end

