-- ==== Sys2Proof/Config.lean ====
section
/-! DEFINITION. The block's constants (spec 00_scope.md R6) and the one free value of the model. -/

namespace Sys2Proof

/-- `START_MARKER` (R6). -/
def Config.startMarker : Byte := 0x02

/-- `END_MARKER` (R6). -/
def Config.endMarker : Byte := 0x03

/-- `FRAME_LEN` (R6): the only payload length that is forwarded to the extractor. -/
def Config.frameLen : Nat := 27

/-- The value of `len` that means "28 or more" (R23). -/
def Config.lenSaturated : BitVec 5 := 28

/-- `IDX_MACHINE` (R6): the payload index of the machine-active flag. -/
def Config.idxMachine : Fin 27 := 2

/-- `IDX_REJECT` (R6): the payload index of the reject-sensor flag. -/
def Config.idxReject : Fin 27 := 5

/-- `AMOUNT_LO` (R6). -/
def Config.amountLo : Nat := 7

/-- `AMOUNT_HI` (R6), exclusive. -/
def Config.amountHi : Nat := 20

/-- `PIECE_LO` (R6). -/
def Config.pieceLo : Nat := 23

/-- `PIECE_HI` (R6), exclusive. -/
def Config.pieceHi : Nat := 27

/-- The default of the parameter `ERRCNT_W` (R6, decision D11): the width `State.reset` takes. Every other width is a
state with another `errcntW` (log entry 5). -/
def Config.errcntWDefault : Nat := 32

/-- FREE VALUE: what the environment presents at an edge for which the state lists no input (log entry 2). R10 and R176
leave the inputs to the environment; nothing in Lean knows a value of this. -/
opaque Config.freeInput : Nat → Input

end Sys2Proof
end

