-- ==== Sys2Proof/Syntax.lean ====
section
/-! DEFINITION. The seven operations of the block (spec 30_encoding.md R60), one constructor per row of
spec/opcode_table.json. -/

namespace Sys2Proof

/-- What one rising edge does (R60). The bits a row leaves as don't-cares (R62, R66) are no operand; a byte that a row
takes with a constraint is its operand (the constraint is `Instr.WellFormed`). -/
inductive Instr where
  /-- RESET: `rst` = 1 (R170). -/
  | reset
  /-- RESYNC: `rst` = 0, `resync` = 1 (R86). -/
  | resync
  /-- IDLE: no byte this cycle (R87). -/
  | idle
  /-- WAIT_START: the start marker in `WAITING_FOR_START` (R82). -/
  | waitStart
  /-- WAIT_NOISE: any other byte in `WAITING_FOR_START` (R83). -/
  | waitNoise (inByte : Byte)
  /-- READ_END: the end marker in `READING_PAYLOAD` (R84). -/
  | readEnd
  /-- READ_DATA: any other byte in `READING_PAYLOAD` (R85). -/
  | readData (inByte : Byte)
  deriving DecidableEq, Repr

end Sys2Proof
end

