-- ==== Sys2Proof/Machine/State.lean ====
section
/-! DEFINITION. The state of the block (spec 10_state.md R20), the reasons a step can stop, and the state after reset. -/

namespace Sys2Proof.Machine

/-- The two states of the frame decoder, the source's names (R24). -/
inductive DecoderState where
  /-- `WAITING_FOR_START`, encoded 0. -/
  | waitingForStart
  /-- `READING_PAYLOAD`, encoded 1. -/
  | readingPayload
  deriving DecidableEq, Repr

/-- The event of the last edge (R25, R140). -/
inductive Event where
  /-- NONE, code 0. -/
  | none
  /-- RECORD, code 1. -/
  | record
  /-- FRAME_ERROR, code 2. -/
  | frameError
  /-- PARSE_ERROR, code 3. -/
  | parseError
  deriving DecidableEq, Repr

/-- A DecodedRecord as `Extract` returns it (00_scope.md R15, 41_payload_extractor.md R110). -/
structure Record where
  amount : BitVec 44
  pieceCountRaw : BitVec 14
  machineActive : Bool
  rejectSensorActive : Bool
  deriving DecidableEq, Repr

/-- What `Extract` returns (R110). -/
inductive ExtractResult where
  | ok (rec : Record)
  | parseError
  deriving DecidableEq, Repr

/-- The frame buffer's bytes as cells (address, byte), in the canonical form of `Memory.wf` (log entry 7). The addresses
are the buffer indices 0..26 (20_memory.md R40). -/
structure Memory where
  cells : List Host.Cell
  deriving DecidableEq, Repr

/-- The state. The first eleven fields are the elements of R20, which are all the state the block has; the last three
are the model's own. -/
structure State where
  /-- `st`: which of its two states the decoder is in (R24). -/
  st : DecoderState
  /-- `len`: payload bytes since the last start marker, 28 meaning "28 or more" (R23). -/
  len : BitVec 5
  /-- `buf[0..26]`: the accumulation buffer (R22). -/
  buf : Memory
  /-- `evt`: the event of the last edge (R25). -/
  evt : Event
  /-- `rec_amount`: the last record's amount (R26). -/
  recAmount : BitVec 44
  /-- `rec_piece`: the last record's piece count (R26). -/
  recPiece : BitVec 14
  /-- `rec_machine_active`: the last record's machine-active flag (R26). -/
  recMachineActive : Bool
  /-- `rec_reject_active`: the last record's reject-sensor flag (R26). -/
  recRejectActive : Bool
  /-- `frame_out[0..26]`: the last frame forwarded to the extractor (R27). -/
  frameOut : Frame
  /-- `frame_err_count`: the number an `ERRCNT_W`-bit counter holds (R28, log entry 6). -/
  frameErrCount : Nat
  /-- `parse_err_count`: the number an `ERRCNT_W`-bit counter holds (R29, log entry 6). -/
  parseErrCount : Nat
  /-- The parameter `ERRCNT_W` (00_scope.md R6): fixed when the block is built (R9); no step writes it (log entry 5). -/
  errcntW : Nat
  /-- What the environment presents at the next edges, oldest first (R12, log entry 1). -/
  inputs : List Input
  /-- How many inputs came from `Config.freeInput` so far (log entry 2). -/
  draws : Nat
  deriving DecidableEq, Repr

/-- No fault exists: the block has no traps (R147) and nothing is fatal (R145); its two errors are events. So nothing
raises a fault, which is safe and exact (log entry 17). -/
inductive Fault where
  deriving DecidableEq, Repr

/-- The refusals. -/
inductive Refusal where
  /-- Raised by an arm of `exec` whose operation has no meaning yet (safe: the machine stops). No arm of this model
  raises it. -/
  | notModelled (mnemonic : String)
  deriving DecidableEq, Repr

/-- The state right after a RESET edge (R170, R20), with the default `ERRCNT_W` (R6). The spec gives `buf` no value
there (R171): it is 27 bytes 0x00, a DESIGN CHOICE (log entry 3). -/
def State.reset : State where
  st := .waitingForStart
  len := 0
  buf := ⟨[]⟩
  evt := .none
  recAmount := 0
  recPiece := 0
  recMachineActive := false
  recRejectActive := false
  frameOut := Vector.replicate 27 0x00
  frameErrCount := 0
  parseErrCount := 0
  errcntW := Config.errcntWDefault
  inputs := []
  draws := 0

end Sys2Proof.Machine
end

