-- ==== Sys2Proof/Machine/Flags.lean ====
section
/-! DEFINITION. The flag computations: the block has no condition codes, only the two boolean fields of a record
(spec 10_state.md R35, 41_payload_extractor.md R113, R114). -/

namespace Sys2Proof.Machine

/-- machineActive = (buf[2] /= 0x30): `'0'` is inactive, every other byte active (R113). -/
def machineActiveFlag (f : Frame) : Bool := f[Config.idxMachine] != 0x30

/-- rejectSensorActive = (buf[5] = 0x31): `'1'` is active, every other byte inactive (R114). -/
def rejectSensorFlag (f : Frame) : Bool := f[Config.idxReject] == 0x31

end Sys2Proof.Machine
end

