-- ==== Sys2Proof/Machine/Operands.lean ====
section
/-! DEFINITION. The operand fields of the payload (spec 30_encoding.md R68): the byte tests of 00_scope.md R14, the two
checks and the decimal fields of 41_payload_extractor.md. -/

namespace Sys2Proof.Machine

/-- A byte is ASCII when its bit 7 is 0 (R14, R111). -/
def isAscii (b : Byte) : Bool := !b.getLsbD 7

/-- A byte is a digit when its value is in 0x30..0x39 (R14, R112). -/
def isDigit (b : Byte) : Bool := decide (0x30 ≤ b.toNat ∧ b.toNat ≤ 0x39)

/-- `b - 0x30`, the value of a digit byte (R14). Only digits are ever read through it (log entry 15). -/
def digitVal (b : Byte) : Nat := b.toNat - 0x30

/-- The payload indices of the half-open range `[lo, hi)` (R8, R11), lowest first. -/
def payloadRange (lo hi : Nat) : List (Fin 27) :=
  (List.finRange 27).filter fun i => decide (lo ≤ i.val ∧ i.val < hi)

/-- The indices of both digit fields, `[7, 20)` and `[23, 27)` (R112). -/
def digitPositions : List (Fin 27) :=
  payloadRange Config.amountLo Config.amountHi ++ payloadRange Config.pieceLo Config.pieceHi

/-- AsciiOk: every byte of the frame is ASCII, the unused positions among them (R111, conflict C2). -/
def asciiOk (f : Frame) : Bool := (List.finRange 27).all fun i => isAscii f[i]

/-- DigitsOk: every byte of both digit fields is a digit (R112). -/
def digitsOk (f : Frame) : Bool := digitPositions.all fun i => isDigit f[i]

/-- `Dec(buf, lo, hi)` = the sum over `i` in `[lo, hi)` of `(buf[i] - 0x30) * 10^(hi - 1 - i)`, exact (R110, R122); the
lowest index is the most significant digit (20_memory.md R42). -/
def dec (f : Frame) (lo hi : Nat) : Nat :=
  ((payloadRange lo hi).map fun i => 10 ^ (hi - 1 - i.val) * digitVal f[i]).sum

/-- amount: 13 decimal digits, zero-extended to 44 bits (R115). -/
def amountField (f : Frame) : BitVec 44 := BitVec.ofNat 44 (dec f Config.amountLo Config.amountHi)

/-- pieceCountRaw: 4 decimal digits, zero-extended to 14 bits (R116). -/
def pieceField (f : Frame) : BitVec 14 := BitVec.ofNat 14 (dec f Config.pieceLo Config.pieceHi)

end Sys2Proof.Machine
end

