-- ==== Sys2Proof/Machine/Extractor.lean ====
section
/-! DEFINITION. The payload field extractor (spec 41_payload_extractor.md R110). -/

namespace Sys2Proof.Machine

/-- The record of a frame, read without its checks (R113 to R116). -/
def recordOf (f : Frame) : Record where
  amount := amountField f
  pieceCountRaw := pieceField f
  machineActive := machineActiveFlag f
  rejectSensorActive := rejectSensorFlag f

/-- `Extract` (R110): ParseError when a check fails, else the record. -/
def extract (f : Frame) : ExtractResult :=
  if asciiOk f = false then .parseError
  else if digitsOk f = false then .parseError
  else .ok (recordOf f)

end Sys2Proof.Machine
end

