-- ==== Sys2Proof/WellFormed.lean ====
section
/-! DEFINITION. The operand constraints of the decode table (spec 30_encoding.md R62: the excluded words). -/

namespace Sys2Proof

/-- An operation is well formed when its byte is one its row of R62 takes: WAIT_NOISE excludes the start marker,
READ_DATA excludes the end marker. -/
abbrev Instr.WellFormed (i : Instr) : Prop :=
  match i with
  | .reset => True
  | .resync => True
  | .idle => True
  | .waitStart => True
  | .waitNoise b => b ≠ Config.startMarker
  | .readEnd => True
  | .readData b => b ≠ Config.endMarker

end Sys2Proof
end

