-- ==== Sys2Proof/Decode.lean ====
section
/-! DEFINITION. The decoder and the encoder of operation words, and the decode table as data (spec 30_encoding.md R61,
R62). -/

namespace Sys2Proof

/-- `OPW[7:0]`, the input byte (R61). -/
def opwByte (w : Opw) : Byte := w.extractLsb' 0 8

/-- Decode an operation word: the rows of R62 in their order of priority. Total: every word selects an operation (R64),
none is illegal, reserved or a hint (R65). -/
def decode (w : Opw) : Instr :=
  if w.getLsbD 11 then .reset
  else if w.getLsbD 10 then .resync
  else if w.getLsbD 9 = false then .idle
  else if w.getLsbD 8 = false then
    if opwByte w = Config.startMarker then .waitStart else .waitNoise (opwByte w)
  else
    if opwByte w = Config.endMarker then .readEnd else .readData (opwByte w)

/-- Why a number is not an operation word. -/
inductive DecodeError where
  /-- It has a bit above bit 11: `OPW` has 12 bits (R61). Log entry 12. -/
  | moreThanTwelveBits
  deriving DecidableEq, Repr

/-- Decode a number of any size: a number of more than 12 bits is rejected by name. -/
def decodeNumber (w : Nat) : Except DecodeError Instr :=
  if w < 4096 then .ok (decode (BitVec.ofNat 12 w)) else .error .moreThanTwelveBits

/-- What the decoder reads from a word numbered as spec/opcode_table.json numbers it (log entry 12). The row's 12 bits
come as two bytes, so `nbits` says nothing the word itself does not say. -/
def decodeTableWord (_nbits w : Nat) : Option Instr :=
  match decodeNumber w with
  | .ok i => some i
  | .error _ => none

/-- The operation word of an operation, every don't-care bit 0 (R62). -/
def encode (i : Instr) : Opw :=
  match i with
  | .reset => 0x800
  | .resync => 0x400
  | .idle => 0x000
  | .waitStart => 0x202
  | .waitNoise b => 0b0010#4 ++ b
  | .readEnd => 0x303
  | .readData b => 0b0011#4 ++ b

/-- One row of the decode table of R62: its priority, its match and mask, and the words a row of higher priority takes
from it. -/
structure OpcodeRow where
  priority : Nat
  matchBits : Opw
  mask : Opw
  excludes : List Opw
  deriving DecidableEq, Repr

/-- A row selects the words that agree with its match under its mask and are not excluded (R62). -/
def rowSelects (r : OpcodeRow) (w : Opw) : Bool :=
  (w &&& r.mask == r.matchBits) && !r.excludes.contains w

/-- The decode table of R62, in its order. -/
def opcodeTable : List OpcodeRow :=
  [ { priority := 1, matchBits := 0x800, mask := 0x800, excludes := [] },
    { priority := 2, matchBits := 0x400, mask := 0xC00, excludes := [] },
    { priority := 3, matchBits := 0x000, mask := 0xE00, excludes := [] },
    { priority := 4, matchBits := 0x202, mask := 0xFFF, excludes := [] },
    { priority := 5, matchBits := 0x200, mask := 0xF00, excludes := [0x202] },
    { priority := 6, matchBits := 0x303, mask := 0xFFF, excludes := [] },
    { priority := 7, matchBits := 0x300, mask := 0xF00, excludes := [0x303] } ]

/-- The priority of the row an operation stands in (R62). -/
def priorityOf (i : Instr) : Nat :=
  match i with
  | .reset => 1
  | .resync => 2
  | .idle => 3
  | .waitStart => 4
  | .waitNoise _ => 5
  | .readEnd => 6
  | .readData _ => 7

/-- The bits of an operation word that its row or its operand reads; the other bits are don't-cares (R62, R66). -/
def careMask (i : Instr) : Opw :=
  match i with
  | .reset => 0x800
  | .resync => 0xC00
  | .idle => 0xE00
  | .waitStart => 0xFFF
  | .waitNoise _ => 0xFFF
  | .readEnd => 0xFFF
  | .readData _ => 0xFFF

end Sys2Proof
end

