-- ==== Sys2Proof/Machine/Ops.lean ====
section
/-! DEFINITION. The named operations the meanings are made of: the frame buffer's bytes, sampling the inputs, forming the
operation word, and the writes the rules of spec 40_frame_decoder.md name. The block has no traps (60_exceptions.md
R147): `emit` is all that an error does besides counting. -/

namespace Sys2Proof.Machine

/-! ### The frame buffer -/

/-- What an address that no cell lists reads as (log entry 3). -/
def Memory.unlisted : Byte := 0x00

/-- Look an address up in a list of cells. -/
def lookupCell : List Host.Cell → Nat → Byte
  | [], _ => Memory.unlisted
  | (k, v) :: rest, a => if k = a then v else lookupCell rest a

/-- Put a byte at an address, keeping the cells in canonical form: rising addresses, no cell equal to `unlisted`. -/
def storeCell : List Host.Cell → Nat → Byte → List Host.Cell
  | [], a, b => if b = Memory.unlisted then [] else [(a, b)]
  | (k, v) :: rest, a, b =>
    if a < k then
      if b = Memory.unlisted then (k, v) :: rest else (a, b) :: (k, v) :: rest
    else if a = k then
      if b = Memory.unlisted then rest else (a, b) :: rest
    else
      (k, v) :: storeCell rest a b

/-- `buf[i]` (20_memory.md R40: index 0..26). -/
def Memory.read (m : Memory) (i : Fin 27) : Byte := lookupCell m.cells i.val

/-- `buf[i] <- b`. -/
def Memory.write (m : Memory) (i : Fin 27) (b : Byte) : Memory := ⟨storeCell m.cells i.val b⟩

/-- The whole buffer, `buf[0..26]`, read at once (20_memory.md R47). -/
def Memory.frame (m : Memory) : Frame :=
  #v[m.read 0, m.read 1, m.read 2, m.read 3, m.read 4, m.read 5, m.read 6, m.read 7, m.read 8,
    m.read 9, m.read 10, m.read 11, m.read 12, m.read 13, m.read 14, m.read 15, m.read 16, m.read 17,
    m.read 18, m.read 19, m.read 20, m.read 21, m.read 22, m.read 23, m.read 24, m.read 25, m.read 26]

/-- The canonical form: addresses strictly rising and within 0..26, no cell holding what an unlisted address reads. -/
abbrev Memory.wf (m : Memory) : Prop :=
  (m.cells.map Prod.fst).Pairwise (· < ·) ∧ ∀ c ∈ m.cells, c.1 < 27 ∧ c.2 ≠ Memory.unlisted

/-! ### Sampling the inputs and forming the operation word -/

/-- The one-bit encoding of `st` (R24). -/
def stCode (d : DecoderState) : BitVec 1 :=
  match d with
  | .waitingForStart => 0
  | .readingPayload => 1

/-- The decoder state that a bit encodes (R24). -/
def stOfBit (b : Bool) : DecoderState :=
  if b then .readingPayload else .waitingForStart

/-- The two-bit code of an event (R140). -/
def eventCode (e : Event) : BitVec 2 :=
  match e with
  | .none => 0
  | .record => 1
  | .frameError => 2
  | .parseError => 3

/-- `OPW` = {rst, resync, in_valid, st, in_byte} (30_encoding.md R61). -/
def operationWord (i : Input) (d : DecoderState) : Opw :=
  BitVec.ofBool i.rst ++ BitVec.ofBool i.resync ++ BitVec.ofBool i.inValid ++ stCode d ++ i.inByte

/-- The inputs that an operation word was formed from (R61). -/
def inputOfWord (w : Opw) : Input where
  rst := w.getLsbD 11
  resync := w.getLsbD 10
  inValid := w.getLsbD 9
  inByte := opwByte w

/-- The inputs at the next edge: the first the environment has lined up, else a free value (log entries 1, 2). -/
def sampledInput (s : State) : Input :=
  match s.inputs with
  | i :: _ => i
  | [] => Config.freeInput s.draws

/-- The state with these inputs lined up instead. -/
def withInputs (is : List Input) (s : State) : State := { s with inputs := is }

/-- The state with one more input drawn from `Config.freeInput`. -/
def countDraw (s : State) : State := { s with draws := s.draws + 1 }

/-- The state once those inputs have been taken; no element of R20 changes. -/
def afterSample (s : State) : State :=
  match s.inputs with
  | _ :: rest => withInputs rest s
  | [] => countDraw s

/-! ### The writes of the operations -/

/-- `emit e`: `evt` holds `e` for the cycle after the edge (R11, R25). -/
def emit (e : Event) (s : State) : State := { s with evt := e }

/-- `st <- 0`, `len <- 0`: every transition to `WAITING_FOR_START` clears the pending buffer (R23, R33, D17). -/
def enterWaiting (s : State) : State := { s with st := .waitingForStart, len := 0 }

/-- `len <- 0`, `st <- 1`: accept a start marker (R82). The bytes of `buf` are not zeroed (D17). -/
def enterReading (s : State) : State := { s with st := .readingPayload, len := 0 }

/-- Where READ_DATA stores its byte: the index `len` while `len` < 27, nowhere otherwise (R85). -/
def storeIndex (s : State) : Option (Fin 27) :=
  if h : s.len.toNat < 27 then some ⟨s.len.toNat, h⟩ else none

/-- `buf[i] <- b`, `len <- len + 1` (R85). -/
def appendByte (i : Fin 27) (b : Byte) (s : State) : State := { s with buf := s.buf.write i b, len := s.len + 1 }

/-- `len <- 28`: the byte is not stored, the frame can no longer be 27 bytes (R85). -/
def saturateLen (s : State) : State := { s with len := Config.lenSaturated }

/-- `frame_out <- buf`, index for index (R84). -/
def forwardFrame (s : State) : State := { s with frameOut := s.buf.frame }

/-- Write the record registers together (R26, R84). -/
def loadRecord (r : Record) (s : State) : State :=
  { s with recAmount := r.amount, recPiece := r.pieceCountRaw, recMachineActive := r.machineActive,
           recRejectActive := r.rejectSensorActive }

/-- `(count + 1) mod 2^ERRCNT_W` (R84, R122). -/
def bumpCount (w count : Nat) : Nat := (count + 1) % 2 ^ w

/-- Count a FrameError (R28). -/
def countFrameError (s : State) : State := { s with frameErrCount := bumpCount s.errcntW s.frameErrCount }

/-- Count a ParseError (R29). -/
def countParseError (s : State) : State := { s with parseErrCount := bumpCount s.errcntW s.parseErrCount }

/-- Every output register and counter to its reset value (R170, D19). -/
def clearOutputs (s : State) : State :=
  { s with recAmount := 0, recPiece := 0, recMachineActive := false, recRejectActive := false,
           frameOut := Vector.replicate 27 0x00, frameErrCount := 0, parseErrCount := 0 }

end Sys2Proof.Machine
end

