-- ==== Sys2Proof/Machine/FrameDecoder.lean ====
section
/-! DEFINITION. The meanings of the six operations of the frame decoder (spec 40_frame_decoder.md). Each writes only the
elements its rule names (R81). -/

namespace Sys2Proof.Machine

/-- RESYNC: back to `WAITING_FOR_START`; a partial frame is dropped without an event (R86). -/
def execResync (s : State) : Host.Outcome State Fault Refusal :=
  .next (emit .none (enterWaiting s))

/-- IDLE: no byte this cycle (R87). -/
def execIdle (s : State) : Host.Outcome State Fault Refusal :=
  .next (emit .none s)

/-- WAIT_START: accept a start marker (R82). -/
def execWaitStart (s : State) : Host.Outcome State Fault Refusal :=
  .next (emit .none (enterReading s))

/-- WAIT_NOISE: discard a byte outside a frame; the byte is not looked at (R83). -/
def execWaitNoise (_inByte : Byte) (s : State) : Host.Outcome State Fault Refusal :=
  .next (emit .none s)

/-- READ_END: close a frame (R84). The length check comes first (60_exceptions.md R146). -/
def execReadEnd (s : State) : Host.Outcome State Fault Refusal :=
  if s.len.toNat = Config.frameLen then
    match extract s.buf.frame with
    | .ok r => .next (enterWaiting (emit .record (loadRecord r (forwardFrame s))))
    | .parseError => .next (enterWaiting (emit .parseError (countParseError (forwardFrame s))))
  else
    .next (enterWaiting (emit .frameError (countFrameError s)))

/-- READ_DATA: append a payload byte, or, past the 27th, only note that the frame is too long (R85). -/
def execReadData (inByte : Byte) (s : State) : Host.Outcome State Fault Refusal :=
  match storeIndex s with
  | some i => .next (emit .none (appendByte i inByte s))
  | none => .next (emit .none (saturateLen s))

end Sys2Proof.Machine
end

