-- ==== Sys2Proof/Machine/Reset.lean ====
section
/-! DEFINITION. The meaning of RESET (spec 70_reset_and_hazards.md R170). -/

namespace Sys2Proof.Machine

/-- RESET: every element of R20 but `buf` to its reset value; `buf` is not written (R170, log entry 4). -/
def execReset (s : State) : Host.Outcome State Fault Refusal :=
  .next (emit .none (enterWaiting (clearOutputs s)))

end Sys2Proof.Machine
end

