-- ==== Sys2Proof/Machine/Dispatch.lean ====
section
/-! DEFINITION. The dispatch of an operation to its meaning, one arm per constructor. -/

namespace Sys2Proof.Machine

def exec (i : Instr) (s : State) : Host.Outcome State Fault Refusal :=
  match i with
  | .reset => Sys2Proof.Machine.execReset s
  | .resync => Sys2Proof.Machine.execResync s
  | .idle => Sys2Proof.Machine.execIdle s
  | .waitStart => Sys2Proof.Machine.execWaitStart s
  | .waitNoise inByte => Sys2Proof.Machine.execWaitNoise inByte s
  | .readEnd => Sys2Proof.Machine.execReadEnd s
  | .readData inByte => Sys2Proof.Machine.execReadData inByte s

end Sys2Proof.Machine
end

