-- ==== Sys2Proof/Machine/Step.lean ====
section
/-! DEFINITION. One rising edge of `clk` (spec 00_scope.md R12, 40_frame_decoder.md R80). -/

namespace Sys2Proof.Machine

/-- `Step(s, input)`: decode the operation word of the sampled inputs and the state, and perform the operation (R80). -/
def edge (i : Input) (s : State) : Host.Outcome State Fault Refusal :=
  exec (decode (operationWord i s.st)) s

/-- One step: sample the inputs and apply `Step` to them. -/
def step (s : State) : Host.Outcome State Fault Refusal :=
  edge (sampledInput s) (afterSample s)

/-- `s` with the operation word `w` as what the next step decodes: its input bits are the next input, its bit 8 is `st`
(R61, log entry 11). -/
def State.withFetchWord (s : State) (_nbits w : Nat) : State :=
  withInputs (inputOfWord (BitVec.ofNat 12 w) :: s.inputs) { s with st := stOfBit ((BitVec.ofNat 12 w).getLsbD 8) }

end Sys2Proof.Machine
end

