-- ==== Sys2Proof/Machine/Outputs.lean ====
section
/-! DEFINITION. The output ports (spec 10_state.md R31): each a function of the state alone. -/

namespace Sys2Proof.Machine

/-- The value of every output port in a cycle (R31). The counters are the numbers their `ERRCNT_W` bits hold (log entry
6). -/
structure Outputs where
  evt : BitVec 2
  recValid : Bool
  frameErr : Bool
  parseErr : Bool
  frameValid : Bool
  recAmount : BitVec 44
  recPiece : BitVec 14
  recMachineActive : Bool
  recRejectActive : Bool
  frameOut : BitVec 216
  frameErrCount : Nat
  parseErrCount : Nat
  stState : BitVec 1
  stLen : BitVec 5
  deriving DecidableEq, Repr

/-- The `frame_out` port: byte `i` on bits `[8i+7 : 8i]` (R31). -/
def frameBits (f : Frame) : BitVec 216 :=
  BitVec.ofNat 216 ((List.finRange 27).map fun i => 2 ^ (8 * i.val) * f[i].toNat).sum

/-- The outputs of a state (R31, R140 for the strobes). -/
def State.outputs (s : State) : Outputs where
  evt := eventCode s.evt
  recValid := s.evt == .record
  frameErr := s.evt == .frameError
  parseErr := s.evt == .parseError
  frameValid := s.evt == .record || s.evt == .parseError
  recAmount := s.recAmount
  recPiece := s.recPiece
  recMachineActive := s.recMachineActive
  recRejectActive := s.recRejectActive
  frameOut := frameBits s.frameOut
  frameErrCount := s.frameErrCount
  parseErrCount := s.parseErrCount
  stState := stCode s.st
  stLen := s.len

end Sys2Proof.Machine
end

