-- ==== Sys2Proof/Safety.lean ====
section
/-! DEFINITION. The terms the claims use: runs over a sequence of inputs, the invariant of reachable states, what an
operation keeps, the stream notation of 30_encoding.md R70, the payload builder of 41_payload_extractor.md R121, and the
source's own decoder with its unbounded buffer (10_state.md R34). -/

namespace Sys2Proof.Machine

/-! ### Runs and input streams -/

/-- The run over a finite sequence of inputs (R12, R13): one step per input, from `s` with exactly those inputs lined
up. -/
def runOn (is : List Input) (s : State) : Host.Outcome State Fault Refusal :=
  Host.Core.run Sys2Proof.core is.length (withInputs is s)

/-- The operation that an input selects in a state (R62). -/
def operationOf (i : Input) (s : State) : Instr := decode (operationWord i s.st)

/-- A cycle that presents a byte: `0xNN` of R70. -/
def byteInput (b : Byte) : Input where
  rst := false
  resync := false
  inValid := true
  inByte := b

/-- `STX` of R70. -/
def stxInput : Input := byteInput 0x02

/-- `ETX` of R70. -/
def etxInput : Input := byteInput 0x03

/-- `FRAME(p)` of R70 for any bytes: start marker, the bytes, end marker. -/
def frameStream (bytes : List Byte) : List Input :=
  stxInput :: bytes.map byteInput ++ [etxInput]

/-- A cycle that neither resets, nor resyncs, nor presents an end marker: between a start marker and an end marker it is
a READ_DATA or an IDLE edge (R85, R87). -/
def insideFrame (i : Input) : Prop :=
  i.rst = false ∧ i.resync = false ∧ (i.inValid = true → i.inByte ≠ 0x03)

/-- The bytes that a sequence of cycles presents, in order (R41). -/
def validBytes (is : List Input) : List Byte :=
  (is.filter fun i => i.inValid).map fun i => i.inByte

/-- The frame that a list of bytes is, if it has 27 (R67). -/
def frameOfList (bytes : List Byte) : Option Frame :=
  if h : bytes.length = 27 then some ⟨bytes.toArray, by simpa using h⟩ else none

/-! ### What an operation keeps, and the invariant -/

/-- Every byte of `buf` reads as before. -/
def keepsBuf (s t : State) : Prop := ∀ i : Fin 27, t.buf.read i = s.buf.read i

/-- The record registers hold their values (R26). -/
def keepsRecord (s t : State) : Prop :=
  t.recAmount = s.recAmount ∧ t.recPiece = s.recPiece ∧ t.recMachineActive = s.recMachineActive ∧
    t.recRejectActive = s.recRejectActive

/-- Both error counters hold their values (R28, R29). -/
def keepsCounts (s t : State) : Prop :=
  t.frameErrCount = s.frameErrCount ∧ t.parseErrCount = s.parseErrCount

/-- The record registers hold this record (R26). -/
def holdsRecord (t : State) (r : Record) : Prop :=
  t.recAmount = r.amount ∧ t.recPiece = r.pieceCountRaw ∧ t.recMachineActive = r.machineActive ∧
    t.recRejectActive = r.rejectSensorActive

/-- The invariants (a) and (b) of R33. -/
structure State.ControlInv (s : State) : Prop where
  len_le : s.len.toNat ≤ 28
  waiting_len : s.st = .waitingForStart → s.len = 0

/-- What every reachable state satisfies: R33; `buf` in canonical form (log entry 7); each counter within its width (R28,
R29); the record registers within the ranges of R119. -/
structure State.Inv (s : State) : Prop where
  control : s.ControlInv
  buf_wf : s.buf.wf
  frame_count : s.frameErrCount < 2 ^ s.errcntW
  parse_count : s.parseErrCount < 2 ^ s.errcntW
  amount_range : s.recAmount.toNat ≤ 9999999999999
  piece_range : s.recPiece.toNat ≤ 9999

/-- Two states that differ at most in the stale bytes of `buf`, those at indices `>= len` (R22, R34). -/
structure agreeLive (s t : State) : Prop where
  same : { t with buf := s.buf } = s
  live : ∀ i : Fin 27, i.val < s.len.toNat → t.buf.read i = s.buf.read i

/-! ### The payload builder of R121 -/

/-- The filler bytes of the unused payload positions (R117, R121). -/
structure Fillers where
  f0 : Byte
  f1 : Byte
  f3 : Byte
  f4 : Byte
  f6 : Byte
  f20 : Byte
  f21 : Byte
  f22 : Byte
  deriving DecidableEq, Repr

/-- The filler bytes as a list. -/
def Fillers.bytes (f : Fillers) : List Byte := [f.f0, f.f1, f.f3, f.f4, f.f6, f.f20, f.f21, f.f22]

/-- `Dn(v)[k]` = 0x30 + (floor(v / 10^(n - 1 - k)) mod 10) (R121). -/
def digitByte (n v k : Nat) : Byte := BitVec.ofNat 8 (0x30 + v / 10 ^ (n - 1 - k) % 10)

/-- `Payload(m, r, a, p, f)` (R121). -/
def payload (m r : Byte) (a p : Nat) (f : Fillers) : Frame :=
  #v[f.f0, f.f1, m, f.f3, f.f4, r, f.f6,
    digitByte 13 a 0, digitByte 13 a 1, digitByte 13 a 2, digitByte 13 a 3, digitByte 13 a 4,
    digitByte 13 a 5, digitByte 13 a 6, digitByte 13 a 7, digitByte 13 a 8, digitByte 13 a 9,
    digitByte 13 a 10, digitByte 13 a 11, digitByte 13 a 12,
    f.f20, f.f21, f.f22,
    digitByte 4 p 0, digitByte 4 p 1, digitByte 4 p 2, digitByte 4 p 3]

/-! ### The source's decoder, with its unbounded buffer and unbounded counts -/

/-- The state of the source's decoder (10_state.md R22, R34): the bytes since the start marker in a list without bound,
the last event, record and forwarded frame, and the number of errors of each kind (log entry 18). -/
structure SourceDecoder where
  st : DecoderState
  acc : List Byte
  evt : Event
  last : Record
  lastFrame : Frame
  frameErrors : Nat
  parseErrors : Nat
  deriving DecidableEq, Repr

/-- The source's decoder after a reset. -/
def SourceDecoder.initial : SourceDecoder where
  st := .waitingForStart
  acc := []
  evt := .none
  last := { amount := 0, pieceCountRaw := 0, machineActive := false, rejectSensorActive := false }
  lastFrame := Vector.replicate 27 0x00
  frameErrors := 0
  parseErrors := 0

/-- The end marker in `READING_PAYLOAD`: the buffer is forwarded if it has exactly 27 bytes, else the frame is dropped and
counted (R84). -/
def sourceClose (d : SourceDecoder) : SourceDecoder :=
  match frameOfList d.acc with
  | some f =>
    match extract f with
    | .ok r => { d with st := .waitingForStart, acc := [], evt := .record, last := r, lastFrame := f }
    | .parseError =>
      { d with st := .waitingForStart, acc := [], evt := .parseError, lastFrame := f, parseErrors := d.parseErrors + 1 }
  | none => { d with st := .waitingForStart, acc := [], evt := .frameError, frameErrors := d.frameErrors + 1 }

/-- One edge of the source's decoder: `Any other byte is appended to the buffer` (R84, R85). -/
def sourceEdge (d : SourceDecoder) (i : Input) : SourceDecoder :=
  if i.rst then .initial
  else if i.resync then { d with st := .waitingForStart, acc := [], evt := .none }
  else if i.inValid = false then { d with evt := .none }
  else match d.st with
    | .waitingForStart =>
      if i.inByte = 0x02 then { d with st := .readingPayload, acc := [], evt := .none } else { d with evt := .none }
    | .readingPayload =>
      if i.inByte = 0x03 then sourceClose d else { d with acc := d.acc ++ [i.inByte], evt := .none }

/-- The block stands for the source's decoder: `len` is the saturated length, the live bytes of `buf` are the buffer's,
the registers are equal, and each counter is the count modulo 2^ERRCNT_W (R22, R23, R28, R29). -/
structure represents (s : State) (d : SourceDecoder) : Prop where
  st : s.st = d.st
  len : s.len.toNat = min d.acc.length 28
  buf : ∀ i : Fin 27, i.val < d.acc.length → d.acc[i.val]? = some (s.buf.read i)
  evt : s.evt = d.evt
  last : holdsRecord s d.last
  lastFrame : s.frameOut = d.lastFrame
  frameErrors : s.frameErrCount = d.frameErrors % 2 ^ s.errcntW
  parseErrors : s.parseErrCount = d.parseErrors % 2 ^ s.errcntW

end Sys2Proof.Machine
end

