-- ==== Sys2Proof/Certificates/Slice0/Obligations.lean ====
section
/-! DEFINITION. The statements for the provers. Each docstring names the rule of spec/ it formalises. -/

open Sys2Proof Sys2Proof.Machine

/-! ### Decoding and encoding -/

/-- R62: the decoder selects the operation of the first row of the decode table that matches, and the byte an operation
carries is `OPW[7:0]`. -/
def Obligations.DecodeSelectsFirstTableRow : Prop :=
  (∀ w : Opw, (opcodeTable.find? fun r => rowSelects r w).map (fun r => r.priority) = some (priorityOf (decode w))) ∧
    (∀ (w : Opw) (b : Byte), decode w = .waitNoise b ∨ decode w = .readData b → b = opwByte w)

/-- R64: every one of the 4096 words is selected by exactly one row of the decode table, and decodes to that row's
operation, with the rule's counts per operation. -/
def Obligations.DecodeClassCounts : Prop :=
  (∀ w : Opw, ∃ r ∈ opcodeTable, r.priority = priorityOf (decode w) ∧
      ∀ r' ∈ opcodeTable, rowSelects r' w = true ↔ r' = r) ∧
    [1, 2, 3, 4, 5, 6, 7].map
        (fun p => (List.range 4096).countP fun n => priorityOf (decode (BitVec.ofNat 12 n)) == p) =
      [2048, 1024, 512, 1, 255, 1, 255]

/-- R80 and R63: which operation an edge performs, from the sampled inputs and `st` alone. -/
def Obligations.EdgeSelectsOperation : Prop :=
  ∀ (i : Input) (s : State),
    edge i s =
      if i.rst = true then exec .reset s
      else if i.resync = true then exec .resync s
      else if i.inValid = false then exec .idle s
      else if s.st = .waitingForStart ∧ i.inByte = 0x02 then exec .waitStart s
      else if s.st = .waitingForStart then exec (.waitNoise i.inByte) s
      else if i.inByte = 0x03 then exec .readEnd s
      else exec (.readData i.inByte) s

/-- Decode and encode agree (R61, R62): every well-formed operation is read back from its word, its byte at every value
its row admits. -/
def Obligations.DecodeOfEncode : Prop :=
  ∀ i : Instr, i.WellFormed → decode (encode i) = i

/-- The other direction (R62, R66): a word and the encoding of what it decodes to differ only in don't-care bits. -/
def Obligations.EncodeOfDecode : Prop :=
  ∀ w : Opw, encode (decode w) = w &&& careMask (decode w)

/-- R62: what a word decodes to meets its row's constraint on the byte. -/
def Obligations.DecodedIsWellFormed : Prop :=
  ∀ w : Opw, (decode w).WellFormed

/-- The words of 95_test_vectors.md section 5 decode to the operations named there. -/
def Obligations.ListedWordsDecode : Prop :=
  decode 0x800 = .reset ∧ decode 0xFFF = .reset ∧ decode 0x7FF = .resync ∧ decode 0x602 = .resync ∧
    decode 0x000 = .idle ∧ decode 0x103 = .idle ∧ decode 0x202 = .waitStart ∧ decode 0x203 = .waitNoise 0x03 ∧
    decode 0x2FF = .waitNoise 0xFF ∧ decode 0x303 = .readEnd ∧ decode 0x302 = .readData 0x02 ∧
    decode 0x380 = .readData 0x80 ∧ decode 0x300 = .readData 0x00

/-! ### Steps and runs -/

/-- R12, R80: a step runs the decoded operation on the state whose next input has been taken. Which input that is is the
model's choice: the first lined up (log entry 1), else the free value of the draw (log entry 2). -/
def Obligations.StepRunsDecodedOperation : Prop :=
  (∀ (s : State) (i : Input) (rest : List Input), s.inputs = i :: rest →
      step s = exec (decode (operationWord i s.st)) (withInputs rest s)) ∧
    (∀ s : State, s.inputs = [] →
      step s = exec (decode (operationWord (Config.freeInput s.draws) s.st)) (countDraw s))

/-- R61: the operation word formed from a word's own input bits and `st` bit is that word, so a step after `withFetchWord`
runs exactly that word's operation (log entry 11). -/
def Obligations.FetchedWordRuns : Prop :=
  (∀ w : Opw, operationWord (inputOfWord w) (stOfBit (w.getLsbD 8)) = w) ∧
    ∀ (s : State) (nbits w : Nat), w < 4096 → ∃ i, decodeTableWord nbits w = some i ∧
      step (s.withFetchWord nbits w) = exec i { s with st := stOfBit (w.testBit 8) }

/-- R50: the state after input `k` is `Step` of the state after input `k - 1`. -/
def Obligations.RunIsSequential : Prop :=
  ∀ (is : List Input) (i : Input) (s t : State), runOn is s = .next t → runOn (is ++ [i]) s = edge i t

/-- R66: the don't-care inputs have no effect: `in_byte` without `in_valid`, `in_valid` and `in_byte` under `rst` or
`resync`. -/
def Obligations.DontCareInputsIgnored : Prop :=
  ∀ (i j : Input) (s : State), i.rst = j.rst → i.resync = j.resync →
    (i.rst = true ∨ i.resync = true ∨ (i.inValid = false ∧ j.inValid = false)) → edge i s = edge j s

/-- R175: a byte presented with `rst` or `resync` is not decoded, not stored and not counted, even a start marker. -/
def Obligations.ByteLostUnderResetOrResync : Prop :=
  ∀ (i : Input) (s : State), i.rst = true ∨ i.resync = true →
    ∃ t, edge i s = .next t ∧ edge { i with inValid := false } s = .next t ∧ t.st = .waitingForStart ∧ t.len = 0 ∧
      t.evt = .none ∧
      (i.rst = true → t.frameErrCount = 0 ∧ t.parseErrCount = 0) ∧
      (i.rst = false → keepsBuf s t ∧ keepsCounts s t ∧ keepsRecord s t ∧ t.frameOut = s.frameOut)

/-! ### The operations -/

/-- R170: RESET completes in every state, with every element but `buf` at its reset value; a second RESET changes nothing
more; and every edge with `rst` = 1 is it. -/
def Obligations.ResetWritesResetValues : Prop :=
  ∀ s : State, ∃ t, exec .reset s = .next t ∧
    t.st = .waitingForStart ∧ t.len = 0 ∧ t.evt = .none ∧ t.recAmount = 0 ∧ t.recPiece = 0 ∧
    t.recMachineActive = false ∧ t.recRejectActive = false ∧ (∀ i : Fin 27, t.frameOut[i] = 0x00) ∧
    t.frameErrCount = 0 ∧ t.parseErrCount = 0 ∧ exec .reset t = .next t ∧
    (∀ (i : Input), i.rst = true → edge i s = .next t)

/-- The model's choice (log entry 4, DEDUCED from R170 and R81): a RESET edge leaves every byte of `buf` as it was. -/
def Obligations.ResetLeavesBuffer : Prop :=
  ∀ s : State, ∃ t, exec .reset s = .next t ∧ keepsBuf s t ∧ t.buf = s.buf

/-- R20, R170 and vector V21: after RESET in any state, every output port shows what it shows in `State.reset`. -/
def Obligations.ResetOutputsAreResetState : Prop :=
  ∀ s : State, ∃ t, exec .reset s = .next t ∧ t.outputs = State.reset.outputs

/-- R86: RESYNC completes in every state: back to `WAITING_FOR_START`, everything else kept, no event; in
`WAITING_FOR_START` it changes nothing but `evt`; and it is every edge with `resync` = 1 and `rst` = 0. -/
def Obligations.ResyncReturnsToWaiting : Prop :=
  ∀ s : State, ∃ t, exec .resync s = .next t ∧
    t.st = .waitingForStart ∧ t.len = 0 ∧ t.evt = .none ∧
    keepsBuf s t ∧ keepsRecord s t ∧ keepsCounts s t ∧ t.frameOut = s.frameOut ∧
    (s.st = .waitingForStart → s.len = 0 → t = { s with evt := .none }) ∧
    (∀ i : Input, i.rst = false → i.resync = true → edge i s = .next t)

/-- R87: IDLE completes in every state and writes `evt` alone; it is every edge with no byte, no `resync`, no `rst`. -/
def Obligations.IdleWritesEventOnly : Prop :=
  ∀ s : State, ∃ t, exec .idle s = .next t ∧ t = { s with evt := .none } ∧
    t.st = s.st ∧ t.len = s.len ∧ keepsBuf s t ∧
    (∀ i : Input, i.rst = false → i.resync = false → i.inValid = false → edge i s = .next t)

/-- R82: WAIT_START completes in every state; nothing but `st`, `len` and `evt` changes, so the marker is neither stored
nor counted; in `WAITING_FOR_START` the byte 0x02 selects it. -/
def Obligations.WaitStartEntersReading : Prop :=
  ∀ s : State, ∃ t, exec .waitStart s = .next t ∧
    t.st = .readingPayload ∧ t.len = 0 ∧ t.evt = .none ∧
    keepsBuf s t ∧ keepsRecord s t ∧ keepsCounts s t ∧ t.frameOut = s.frameOut ∧
    (s.st = .waitingForStart → edge (byteInput 0x02) s = .next t)

/-- R83: WAIT_NOISE completes in every state, whatever its byte, and writes `evt` alone; in `WAITING_FOR_START` every
byte but 0x02 selects it. -/
def Obligations.WaitNoiseDiscardsByte : Prop :=
  ∀ (b : Byte) (s : State), ∃ t, exec (.waitNoise b) s = .next t ∧ t = { s with evt := .none } ∧ keepsBuf s t ∧
    (s.st = .waitingForStart → b ≠ 0x02 → edge (byteInput b) s = .next t)

/-- R84: READ_END completes in every state: the frame is forwarded and extracted if `len` = 27, else it is a FrameError;
what it does not name it keeps; in `READING_PAYLOAD` the byte 0x03 selects it. -/
def Obligations.ReadEndClosesFrame : Prop :=
  ∀ s : State, ∃ t, exec .readEnd s = .next t ∧
    t.st = .waitingForStart ∧ t.len = 0 ∧ keepsBuf s t ∧
    (if s.len = 27 then
      (∀ i : Fin 27, t.frameOut[i] = s.buf.read i) ∧
        match extract s.buf.frame with
        | .ok r => holdsRecord t r ∧ keepsCounts s t ∧ t.evt = .record
        | .parseError =>
          keepsRecord s t ∧ t.frameErrCount = s.frameErrCount ∧
            t.parseErrCount = (s.parseErrCount + 1) % 2 ^ s.errcntW ∧ t.evt = .parseError
    else
      keepsRecord s t ∧ t.frameOut = s.frameOut ∧ t.parseErrCount = s.parseErrCount ∧
        t.frameErrCount = (s.frameErrCount + 1) % 2 ^ s.errcntW ∧ t.evt = .frameError) ∧
    (s.st = .readingPayload → edge (byteInput 0x03) s = .next t)

/-- R85: READ_DATA completes in every state whose `buf` is in canonical form: below 27 bytes the byte is stored at the
index `len` and counted, from 27 on it is only noted; every other byte of `buf` and every other element is kept; in
`READING_PAYLOAD` every byte but 0x03 selects it. -/
def Obligations.ReadDataAppendsByte : Prop :=
  ∀ (b : Byte) (s : State), s.buf.wf → ∃ t, exec (.readData b) s = .next t ∧
    t.st = s.st ∧ t.evt = .none ∧ keepsRecord s t ∧ keepsCounts s t ∧ t.frameOut = s.frameOut ∧
    (s.len.toNat < 27 → t.len.toNat = s.len.toNat + 1) ∧ (27 ≤ s.len.toNat → t.len = 28) ∧
    (∀ i : Fin 27, storeIndex s = some i → i.val = s.len.toNat ∧ t.buf.read i = b) ∧
    (∀ i : Fin 27, storeIndex s ≠ some i → t.buf.read i = s.buf.read i) ∧
    (storeIndex s = none ↔ 27 ≤ s.len.toNat) ∧
    (s.st = .readingPayload → b ≠ 0x03 → edge (byteInput b) s = .next t)

/-- R6, R9: no step changes the parameter `ERRCNT_W`. -/
def Obligations.StepKeepsParameter : Prop :=
  ∀ s : State, ∃ t, step s = .next t ∧ t.errcntW = s.errcntW

/-! ### Events, outputs, counters -/

/-- R140: the event code and the strobes that every edge leaves. -/
def Obligations.EdgeLeavesEventCode : Prop :=
  ∀ (i : Input) (s : State), ∃ t, edge i s = .next t ∧
    (operationOf i s ≠ .readEnd → t.outputs.evt = 0 ∧ t.outputs.recValid = false ∧ t.outputs.frameErr = false ∧
      t.outputs.parseErr = false ∧ t.outputs.frameValid = false) ∧
    (operationOf i s = .readEnd → s.len ≠ 27 → t.outputs.evt = 2 ∧ t.outputs.recValid = false ∧
      t.outputs.frameErr = true ∧ t.outputs.parseErr = false ∧ t.outputs.frameValid = false) ∧
    (operationOf i s = .readEnd → s.len = 27 → (∃ r, extract s.buf.frame = .ok r) → t.outputs.evt = 1 ∧
      t.outputs.recValid = true ∧ t.outputs.frameErr = false ∧ t.outputs.parseErr = false ∧
      t.outputs.frameValid = true) ∧
    (operationOf i s = .readEnd → s.len = 27 → extract s.buf.frame = .parseError → t.outputs.evt = 3 ∧
      t.outputs.recValid = false ∧ t.outputs.frameErr = false ∧ t.outputs.parseErr = true ∧
      t.outputs.frameValid = true)

/-- R31: every output port, `frame_out` byte by byte on its bits. -/
def Obligations.OutputPortsShowState : Prop :=
  ∀ s : State,
    s.outputs.evt = eventCode s.evt ∧ (s.outputs.recValid = true ↔ s.evt = .record) ∧
    (s.outputs.frameErr = true ↔ s.evt = .frameError) ∧ (s.outputs.parseErr = true ↔ s.evt = .parseError) ∧
    (s.outputs.frameValid = true ↔ s.evt = .record ∨ s.evt = .parseError) ∧
    s.outputs.recAmount = s.recAmount ∧ s.outputs.recPiece = s.recPiece ∧
    s.outputs.recMachineActive = s.recMachineActive ∧ s.outputs.recRejectActive = s.recRejectActive ∧
    (∀ i : Fin 27, s.outputs.frameOut.extractLsb' (8 * i.val) 8 = s.frameOut[i]) ∧
    s.outputs.frameErrCount = s.frameErrCount ∧ s.outputs.parseErrCount = s.parseErrCount ∧
    s.outputs.stState = stCode s.st ∧ s.outputs.stLen = s.len

/-- R28: the FrameError counter counts, modulo 2^ERRCNT_W, exactly the end markers with `len` /= 27, and changes at no
other edge except reset. -/
def Obligations.FrameErrorCounterCounts : Prop :=
  ∀ (i : Input) (s : State), ∃ t, edge i s = .next t ∧
    (operationOf i s = .readEnd → s.len ≠ 27 → t.frameErrCount = (s.frameErrCount + 1) % 2 ^ s.errcntW) ∧
    (operationOf i s = .readEnd → s.len = 27 → t.frameErrCount = s.frameErrCount) ∧
    (operationOf i s ≠ .readEnd → operationOf i s ≠ .reset → t.frameErrCount = s.frameErrCount)

/-- R29: the ParseError counter counts, modulo 2^ERRCNT_W, exactly the end markers with `len` = 27 for which `Extract`
fails, and changes at no other edge except reset. -/
def Obligations.ParseErrorCounterCounts : Prop :=
  ∀ (i : Input) (s : State), ∃ t, edge i s = .next t ∧
    (operationOf i s = .readEnd → s.len = 27 → extract s.buf.frame = .parseError →
      t.parseErrCount = (s.parseErrCount + 1) % 2 ^ s.errcntW) ∧
    (operationOf i s = .readEnd → s.len = 27 → extract s.buf.frame ≠ .parseError →
      t.parseErrCount = s.parseErrCount) ∧
    (operationOf i s = .readEnd → s.len ≠ 27 → t.parseErrCount = s.parseErrCount) ∧
    (operationOf i s ≠ .readEnd → operationOf i s ≠ .reset → t.parseErrCount = s.parseErrCount)

/-- R122, R28: a FrameError at the counter's largest value wraps it to 0 and leaves the other counter alone. -/
def Obligations.FrameErrorCounterWraps : Prop :=
  ∀ s : State, s.len ≠ 27 → s.frameErrCount = 2 ^ s.errcntW - 1 →
    ∃ t, exec .readEnd s = .next t ∧ t.frameErrCount = 0 ∧ t.parseErrCount = s.parseErrCount

/-- R26, R27, R170: the record registers change only at a RECORD or a RESET, `frame_out` only at a forwarded frame or a
RESET. -/
def Obligations.RecordAndFrameRegistersHold : Prop :=
  ∀ (i : Input) (s : State), ∃ t, edge i s = .next t ∧
    (operationOf i s ≠ .reset → t.evt ≠ .record → keepsRecord s t) ∧
    (operationOf i s ≠ .reset → t.evt ≠ .record → t.evt ≠ .parseError → t.frameOut = s.frameOut) ∧
    (t.evt = .record ∨ t.evt = .parseError → t.frameOut = s.buf.frame)

/-- R47, R27: whatever a step reports, the record registers hold the record of the very frame `frame_out` holds, and a
PARSE_ERROR is that frame's. -/
def Obligations.ReportedRecordIsOfForwardedFrame : Prop :=
  ∀ s : State, ∃ t, step s = .next t ∧
    (t.evt = .record → ∃ r, extract t.frameOut = .ok r ∧ holdsRecord t r) ∧
    (t.evt = .parseError → extract t.frameOut = .parseError)

/-- R145: nothing is fatal: every step answers a next state, and after an event the decoder is in `WAITING_FOR_START` and
takes the next input at the next edge. -/
def Obligations.NothingIsFatal : Prop :=
  ∀ s : State, ∃ t, step s = .next t ∧
    (t.evt ≠ .none → t.st = .waitingForStart ∧ t.len = 0 ∧ ∀ i : Input, ∃ u, edge i t = .next u)

/-- R146: two events are at least two edges apart. -/
def Obligations.EventsAreTwoEdgesApart : Prop :=
  ∀ s t : State, step s = .next t → t.evt ≠ .none → ∃ u, step t = .next u ∧ u.evt = .none

/-- R146: from a state in `WAITING_FOR_START`, which every event leaves, no frame is forwarded before the 29th edge. -/
def Obligations.ForwardedFramesAre29EdgesApart : Prop :=
  ∀ (s t : State) (k : Nat), s.st = .waitingForStart → 1 ≤ k → Host.Core.run Sys2Proof.core k s = .next t →
    t.evt = .record ∨ t.evt = .parseError → 29 ≤ k

/-! ### Control -/

/-- R88: the transitions of `st`, each by exactly the operations the rule lists. -/
def Obligations.StateTransitions : Prop :=
  ∀ (i : Input) (s : State), ∃ t, edge i s = .next t ∧
    (s.st = .waitingForStart → (t.st = .readingPayload ↔ operationOf i s = .waitStart)) ∧
    (s.st = .waitingForStart → (t.st = .waitingForStart ↔
      (∃ b, operationOf i s = .waitNoise b) ∨ operationOf i s = .idle ∨ operationOf i s = .resync ∨
        operationOf i s = .reset)) ∧
    (s.st = .readingPayload → (t.st = .waitingForStart ↔
      operationOf i s = .readEnd ∨ operationOf i s = .resync ∨ operationOf i s = .reset)) ∧
    (s.st = .readingPayload → (t.st = .readingPayload ↔
      (∃ b, operationOf i s = .readData b) ∨ operationOf i s = .idle))

/-- R93: in `READING_PAYLOAD` the decoder stays there, with no event and nothing reported, over any sequence of data bytes
and IDLE cycles, until an end marker, RESYNC or RESET. -/
def Obligations.ReadingHasNoTimeout : Prop :=
  ∀ (is : List Input) (s : State), s.st = .readingPayload → s.len.toNat ≤ 28 → (∀ i ∈ is, insideFrame i) →
    ∃ t, runOn is s = .next t ∧ t.st = .readingPayload ∧ (is ≠ [] → t.evt = .none) ∧
      t.len.toNat = min (s.len.toNat + (validBytes is).length) 28 ∧ keepsRecord s t ∧ keepsCounts s t ∧
      t.frameOut = s.frameOut ∧ ∀ i : Input, ¬ insideFrame i → ∃ u, edge i t = .next u ∧ u.st = .waitingForStart

/-- R33: the two invariants hold at reset, hold after a RESET edge in any state, and every step keeps them. -/
def Obligations.ControlInvariantKept : Prop :=
  State.reset.ControlInv ∧ (∀ s : State, ∃ t, exec .reset s = .next t ∧ t.ControlInv) ∧
    ∀ s : State, s.ControlInv → ∃ t, step s = .next t ∧ t.ControlInv

/-- The whole invariant is kept by every step: R33; the canonical form of `buf` (the model's, log entry 7); the counters
within their width (R28, R29); the record within the ranges of R119. -/
def Obligations.StepKeepsInvariant : Prop :=
  ∀ s t : State, s.Inv → step s = .next t → t.Inv

/-- The whole invariant holds at `State.reset` (R170; the bytes of `buf` there are log entry 3's choice). -/
def Obligations.ResetMeetsInvariant : Prop :=
  State.reset.Inv

/-! ### The extractor -/

/-- R111, R112: `Extract` fails exactly when some byte is not ASCII or some byte of a digit field is not a digit. -/
def Obligations.ExtractFailsExactly : Prop :=
  ∀ f : Frame, extract f = .parseError ↔
    (∃ i : Fin 27, 0x80 ≤ f[i].toNat) ∨
      (∃ i : Fin 27, ((7 ≤ i.val ∧ i.val < 20) ∨ (23 ≤ i.val ∧ i.val < 27)) ∧ (f[i].toNat < 0x30 ∨ 0x39 < f[i].toNat))

/-- R113 to R116: the four fields of a record, the two numbers as the rules' own sums. -/
def Obligations.ExtractedFields : Prop :=
  ∀ (f : Frame) (r : Record), extract f = .ok r →
    (r.machineActive = true ↔ f[2] ≠ 0x30) ∧ (r.rejectSensorActive = true ↔ f[5] = 0x31) ∧
    r.amount.toNat = ∑ k : Fin 13, 10 ^ (12 - k.val) * (f[7 + k.val].toNat - 0x30) ∧
    r.pieceCountRaw.toNat = ∑ k : Fin 4, 10 ^ (3 - k.val) * (f[23 + k.val].toNat - 0x30)

/-- R119: the ranges of a record's numbers, and that the output widths lose nothing. -/
def Obligations.RecordRanges : Prop :=
  (∀ (f : Frame) (r : Record), extract f = .ok r →
    r.amount.toNat ≤ 10 ^ 13 - 1 ∧ r.pieceCountRaw.toNat ≤ 9999 ∧ r.amount.toNat = dec f 7 20 ∧
      r.pieceCountRaw.toNat = dec f 23 27) ∧
    2 ^ 43 < 10 ^ 13 - 1 ∧ 10 ^ 13 - 1 < 2 ^ 44 ∧ 2 ^ 13 < 9999 ∧ 9999 < 2 ^ 14

/-- R122, R42: the digit sums equal a multiply-accumulate chain that takes the digits in payload order, most significant
first. -/
def Obligations.DecIsMultiplyAccumulate : Prop :=
  ∀ f : Frame,
    dec f 7 20 = (payloadRange 7 20).foldl (fun acc i => acc * 10 + digitVal f[i]) 0 ∧
      dec f 23 27 = (payloadRange 23 27).foldl (fun acc i => acc * 10 + digitVal f[i]) 0

/-- R117: the unused positions do not matter as long as they are ASCII. -/
def Obligations.UnusedPositionsIgnored : Prop :=
  ∀ f g : Frame, asciiOk f = true → asciiOk g = true →
    (∀ i : Fin 27, i ∉ ([0, 1, 3, 4, 6, 20, 21, 22] : List (Fin 27)) → f[i] = g[i]) → extract f = extract g

/-- R121: the payload builder round-trips through `Extract`; and if its flags and fillers are not 0x03, the stream of its
frame gives exactly that record as a RECORD event. -/
def Obligations.PayloadRoundTrip : Prop :=
  ∀ (m r : Byte) (a p : Nat) (f : Fillers),
    (∀ b ∈ m :: r :: f.bytes, isAscii b = true) → a ≤ 10 ^ 13 - 1 → p ≤ 9999 →
    extract (payload m r a p f) =
        .ok { amount := BitVec.ofNat 44 a, pieceCountRaw := BitVec.ofNat 14 p, machineActive := m != 0x30,
              rejectSensorActive := r == 0x31 } ∧
      ((∀ b ∈ m :: r :: f.bytes, b ≠ 0x03) → ∀ s : State, s.st = .waitingForStart → s.buf.wf →
        ∃ t, runOn (frameStream (payload m r a p f).toList) s = .next t ∧ t.evt = .record ∧ t.recAmount.toNat = a ∧
          t.recPiece.toNat = p ∧ t.recMachineActive = (m != 0x30) ∧ t.recRejectActive = (r == 0x31) ∧
          t.frameOut = payload m r a p f)

/-! ### Streams -/

/-- R84, R85, R87, R90, R91: what any stream of one frame does, IDLE cycles included: the bytes between the start marker
and the end marker are the frame; 27 of them are forwarded and extracted, any other number is one FrameError. -/
def Obligations.FrameStreamDecodes : Prop :=
  ∀ (s : State) (cycles : List Input), s.st = .waitingForStart → s.buf.wf → (∀ i ∈ cycles, insideFrame i) →
    ∃ t, runOn (stxInput :: cycles ++ [etxInput]) s = .next t ∧ t.st = .waitingForStart ∧ t.len = 0 ∧
      match frameOfList (validBytes cycles) with
      | some f =>
        t.frameOut = f ∧ t.frameErrCount = s.frameErrCount ∧
          (match extract f with
          | .ok r => t.evt = .record ∧ holdsRecord t r ∧ t.parseErrCount = s.parseErrCount
          | .parseError => t.evt = .parseError ∧ keepsRecord s t ∧
              t.parseErrCount = (s.parseErrCount + 1) % 2 ^ s.errcntW)
      | none =>
        t.evt = .frameError ∧ t.frameOut = s.frameOut ∧ keepsRecord s t ∧ t.parseErrCount = s.parseErrCount ∧
          t.frameErrCount = (s.frameErrCount + 1) % 2 ^ s.errcntW

/-- R90: when READ_END forwards the buffer, its 27 bytes are, in order, the bytes of the READ_DATA edges since the most
recent WAIT_START edge, with no READ_END, RESYNC or RESET edge in between. -/
def Obligations.NoFrameStraddlesReset : Prop :=
  ∀ (s t : State) (is : List Input) (last : Input), s.st = .waitingForStart → s.buf.wf → runOn is s = .next t →
    operationOf last t = .readEnd → t.len = 27 →
    ∃ (before cycles : List Input) (start : Input) (u : State),
      is = before ++ start :: cycles ∧ runOn before s = .next u ∧ operationOf start u = .waitStart ∧
        (∀ i ∈ cycles, insideFrame i) ∧ validBytes cycles = t.buf.frame.toList

/-- R91: a start marker inside a frame does not restart it: `STX`, k data bytes, `STX`, 27 bytes, `ETX` is one frame of
k + 28 bytes, one FrameError. -/
def Obligations.StartMarkerInsideFrameIsData : Prop :=
  ∀ (s : State) (data : List Byte) (p : Frame), s.st = .waitingForStart → (∀ b ∈ data, b ≠ 0x03) →
    (∀ i : Fin 27, p[i] ≠ 0x03) →
    ∃ t, runOn (frameStream (data ++ 0x02 :: p.toList)) s = .next t ∧ t.evt = .frameError ∧
      t.frameErrCount = (s.frameErrCount + 1) % 2 ^ s.errcntW ∧ t.parseErrCount = s.parseErrCount ∧
      keepsRecord s t ∧ t.frameOut = s.frameOut

/-- R92: from `WAITING_FOR_START`, a stream without the byte 0x02 and without RESET produces no event and stays there; and
after a short frame the decoder decodes a frame that follows exactly as from reset. -/
def Obligations.NoStartMarkerNoEvent : Prop :=
  (∀ (s : State) (is : List Input), s.st = .waitingForStart → s.len = 0 →
    (∀ i ∈ is, i.rst = false ∧ (i.inValid = true → i.inByte ≠ 0x02)) →
    ∃ t, runOn is s = .next t ∧ t.st = .waitingForStart ∧ t.len = 0 ∧ (is ≠ [] → t.evt = .none) ∧
      keepsRecord s t ∧ keepsCounts s t ∧ t.frameOut = s.frameOut) ∧
    (∀ (s : State) (data : List Byte) (p : Frame), s.st = .waitingForStart → s.buf.wf → data.length < 27 →
      (∀ b ∈ data, b ≠ 0x03) → (∀ i : Fin 27, p[i] ≠ 0x03) →
      ∃ t u v, runOn (frameStream data) s = .next t ∧ t.st = State.reset.st ∧ t.len = State.reset.len ∧
        runOn (frameStream p.toList) t = .next u ∧ runOn (frameStream p.toList) State.reset = .next v ∧
        u.evt = v.evt ∧ u.st = v.st ∧ u.len = v.len ∧ u.frameOut = v.frameOut ∧
        (v.evt = .record → u.recAmount = v.recAmount ∧ u.recPiece = v.recPiece ∧
          u.recMachineActive = v.recMachineActive ∧ u.recRejectActive = v.recRejectActive))

/-- R34: the block with its bounded buffer stands for the source's decoder with its unbounded buffer, over every input
sequence, from every pair of states that correspond; reset states do. -/
def Obligations.BlockRefinesSourceDecoder : Prop :=
  represents State.reset .initial ∧
    ∀ (is : List Input) (s : State) (d : SourceDecoder), s.buf.wf → represents s d →
      ∃ t, runOn is s = .next t ∧ represents t (is.foldl sourceEdge d)

/-- R34, R22, R171: the stale bytes of `buf` are never observed: two states that differ only in them give the same outputs
after every input sequence, and still differ only in them. -/
def Obligations.StaleBytesNeverObserved : Prop :=
  ∀ (is : List Input) (s t : State), s.buf.wf → t.buf.wf → agreeLive s t →
    ∃ s' t', runOn is s = .next s' ∧ runOn is t = .next t' ∧ agreeLive s' t' ∧ s'.outputs = t'.outputs
end

