-- ==== Sys2Proof/Laws/Memory.lean ====
section
/-! SUPPORT. The laws of the frame buffer: what a write leaves at every index, and that every operation keeps the
canonical form, in which equal contents are equal data. -/

namespace Sys2Proof.Machine

theorem lookupCell_storeCell_same (cells : List Host.Cell) (a : Nat) (b : Byte)
    (h : (cells.map Prod.fst).Pairwise (· < ·)) : lookupCell (storeCell cells a b) a = b := by
  induction cells with
  | nil => unfold storeCell; split <;> simp_all [lookupCell]
  | cons c rest ih =>
    obtain ⟨k, v⟩ := c
    simp only [List.map_cons, List.pairwise_cons] at h
    have later : ∀ cs : List Host.Cell, (∀ x ∈ cs.map Prod.fst, a < x) → lookupCell cs a = Memory.unlisted := by
      intro cs hcs
      induction cs with
      | nil => rfl
      | cons c cs ihc =>
        obtain ⟨k', v'⟩ := c
        simp only [List.map_cons, List.mem_cons, forall_eq_or_imp] at hcs
        have : k' ≠ a := by omega
        simp [lookupCell, this, ihc hcs.2]
    unfold storeCell
    split
    · rename_i hlt
      split
      · rename_i hb
        rw [hb]
        refine later _ ?_
        intro x hx
        simp only [List.map_cons, List.mem_cons] at hx
        rcases hx with rfl | hx
        · exact hlt
        · exact lt_trans hlt (h.1 x hx)
      · simp [lookupCell]
    · split
      · rename_i heq
        subst heq
        split
        · rename_i hb
          rw [hb]
          exact later _ h.1
        · simp [lookupCell]
      · rename_i hne
        simp [lookupCell, Ne.symm hne, ih h.2]

theorem lookupCell_storeCell_other (cells : List Host.Cell) (a j : Nat) (b : Byte) (hj : j ≠ a) :
    lookupCell (storeCell cells a b) j = lookupCell cells j := by
  induction cells with
  | nil => unfold storeCell; split <;> simp [lookupCell, Ne.symm hj]
  | cons c rest ih =>
    obtain ⟨k, v⟩ := c
    unfold storeCell
    split
    · split <;> simp [lookupCell, Ne.symm hj]
    · split
      · rename_i heq
        subst heq
        split <;> simp [lookupCell, Ne.symm hj]
      · simp [lookupCell, ih]

theorem mem_storeCell {cells : List Host.Cell} {a : Nat} {b : Byte} {c : Host.Cell} (h : c ∈ storeCell cells a b) :
    c ∈ cells ∨ (c = (a, b) ∧ b ≠ Memory.unlisted) := by
  induction cells with
  | nil =>
    unfold storeCell at h
    split at h <;> simp_all
  | cons d rest ih =>
    obtain ⟨k, v⟩ := d
    unfold storeCell at h
    split at h
    · split at h <;> (simp_all; try tauto)
    · split at h
      · split at h <;> (simp_all; try tauto)
      · rcases List.mem_cons.mp h with rfl | h
        · exact .inl (by simp)
        · rcases ih h with h | h
          · exact .inl (by simp [h])
          · exact .inr h

theorem pairwise_storeCell {cells : List Host.Cell} (a : Nat) (b : Byte)
    (h : (cells.map Prod.fst).Pairwise (· < ·)) : ((storeCell cells a b).map Prod.fst).Pairwise (· < ·) := by
  induction cells with
  | nil => unfold storeCell; split <;> simp
  | cons c rest ih =>
    obtain ⟨k, v⟩ := c
    have hrest := h
    simp only [List.map_cons, List.pairwise_cons] at hrest
    unfold storeCell
    split
    · rename_i hlt
      split
      · exact h
      · simp only [List.map_cons, List.pairwise_cons]
        refine ⟨?_, hrest⟩
        intro x hx
        rcases List.mem_cons.mp hx with rfl | hx
        · exact hlt
        · exact lt_trans hlt (hrest.1 x hx)
    · split
      · rename_i heq
        subst heq
        split
        · exact hrest.2
        · simp only [List.map_cons, List.pairwise_cons]; exact hrest
      · rename_i h1 h2
        simp only [List.map_cons, List.pairwise_cons]
        refine ⟨?_, ih hrest.2⟩
        intro x hx
        obtain ⟨c, hc, rfl⟩ := List.mem_map.mp hx
        rcases mem_storeCell hc with hc | ⟨rfl, -⟩
        · exact hrest.1 _ (List.mem_map_of_mem hc)
        · show k < a
          omega

/-- A byte read back where it was written. -/
theorem Memory.read_write_same {m : Memory} (h : m.wf) (i : Fin 27) (b : Byte) : (m.write i b).read i = b :=
  lookupCell_storeCell_same _ _ _ h.1

/-- A write leaves every other byte alone. -/
theorem Memory.read_write_other (m : Memory) {i j : Fin 27} (b : Byte) (h : j ≠ i) :
    (m.write i b).read j = m.read j :=
  lookupCell_storeCell_other _ _ _ _ fun hv => h (Fin.ext hv)

/-- A write keeps the canonical form. -/
theorem Memory.wf_write {m : Memory} (h : m.wf) (i : Fin 27) (b : Byte) : (m.write i b).wf := by
  refine ⟨pairwise_storeCell _ _ h.1, ?_⟩
  intro c hc
  rcases mem_storeCell hc with hc | ⟨rfl, hb⟩
  · exact h.2 c hc
  · exact ⟨i.isLt, hb⟩

/-- The memory of `State.reset` is in canonical form. -/
theorem reset_buf_wf : State.reset.buf.wf := by decide

/-- The memory of `State.reset` reads 0x00 everywhere (log entry 3). -/
theorem reset_buf_read (i : Fin 27) : State.reset.buf.read i = 0x00 := rfl

theorem lookupCell_eq_unlisted_of_lt {cells : List Host.Cell} {a : Nat} (h : ∀ c ∈ cells, a < c.1) :
    lookupCell cells a = Memory.unlisted := by
  induction cells with
  | nil => rfl
  | cons c rest ih =>
    obtain ⟨k, v⟩ := c
    have hk : k ≠ a := by have := h (k, v) (by simp); simp at this; omega
    simp [lookupCell, hk, ih fun c hc => h c (by simp [hc])]

theorem cells_eq_of_lookupCell {xs ys : List Host.Cell} (hx : (xs.map Prod.fst).Pairwise (· < ·))
    (hy : (ys.map Prod.fst).Pairwise (· < ·)) (vx : ∀ c ∈ xs, c.2 ≠ Memory.unlisted)
    (vy : ∀ c ∈ ys, c.2 ≠ Memory.unlisted) (h : ∀ a, lookupCell xs a = lookupCell ys a) : xs = ys := by
  induction xs generalizing ys with
  | nil =>
    cases ys with
    | nil => rfl
    | cons c rest =>
      have := h c.1
      simp only [lookupCell, if_true] at this
      exact absurd this.symm (vy c (by simp))
  | cons c rest ih =>
    obtain ⟨k, v⟩ := c
    cases ys with
    | nil =>
      have := h k
      simp only [lookupCell, if_true] at this
      exact absurd this (vx (k, v) (by simp))
    | cons d rest' =>
      obtain ⟨k', v'⟩ := d
      simp only [List.map_cons, List.pairwise_cons] at hx hy
      have above : ∀ c ∈ rest, k < c.1 := fun c hc => hx.1 _ (List.mem_map_of_mem hc)
      have above' : ∀ c ∈ rest', k' < c.1 := fun c hc => hy.1 _ (List.mem_map_of_mem hc)
      have hk : k = k' := by
        rcases lt_trichotomy k k' with hlt | heq | hgt
        · have hl := h k
          have : lookupCell ((k', v') :: rest') k = Memory.unlisted := by
            refine lookupCell_eq_unlisted_of_lt fun c hc => ?_
            rcases List.mem_cons.mp hc with rfl | hc
            · exact hlt
            · exact lt_trans hlt (above' c hc)
          rw [this] at hl
          simp only [lookupCell, if_true] at hl
          exact absurd hl (vx (k, v) (by simp))
        · exact heq
        · have hl := h k'
          have : lookupCell ((k, v) :: rest) k' = Memory.unlisted := by
            refine lookupCell_eq_unlisted_of_lt fun c hc => ?_
            rcases List.mem_cons.mp hc with rfl | hc
            · exact hgt
            · exact lt_trans hgt (above c hc)
          rw [this] at hl
          simp only [lookupCell, if_true] at hl
          exact absurd hl.symm (vy (k', v') (by simp))
      subst hk
      have hv : v = v' := by simpa [lookupCell] using h k
      subst hv
      have hrest : rest = rest' := by
        refine ih hx.2 hy.2 (fun c hc => vx c (by simp [hc])) (fun c hc => vy c (by simp [hc])) fun a => ?_
        by_cases ha : k = a
        · subst ha
          rw [lookupCell_eq_unlisted_of_lt above, lookupCell_eq_unlisted_of_lt above']
        · simpa [lookupCell, ha] using h a
      rw [hrest]

theorem lookupCell_eq_unlisted_of_ge {cells : List Host.Cell} {a n : Nat} (h : ∀ c ∈ cells, c.1 < n) (ha : n ≤ a) :
    lookupCell cells a = Memory.unlisted := by
  induction cells with
  | nil => rfl
  | cons c rest ih =>
    obtain ⟨k, v⟩ := c
    have hk : k ≠ a := by have := h (k, v) (by simp); simp at this; omega
    simp [lookupCell, hk, ih fun c hc => h c (by simp [hc])]

/-- In canonical form, equal contents are equal data. -/
theorem Memory.eq_of_read {m m' : Memory} (h : m.wf) (h' : m'.wf) (hr : ∀ i, m.read i = m'.read i) : m = m' := by
  have : m.cells = m'.cells := by
    refine cells_eq_of_lookupCell h.1 h'.1 (fun c hc => (h.2 c hc).2) (fun c hc => (h'.2 c hc).2) fun a => ?_
    by_cases ha : a < 27
    · exact hr ⟨a, ha⟩
    · rw [lookupCell_eq_unlisted_of_ge (fun c hc => (h.2 c hc).1) (by omega),
        lookupCell_eq_unlisted_of_ge (fun c hc => (h'.2 c hc).1) (by omega)]
  cases m; cases m'; simp_all

/-- Byte `i` of the whole buffer is the byte read at `i`. -/
@[simp] theorem Memory.frame_get (m : Memory) (i : Fin 27) : m.frame[i] = m.read i := by
  fin_cases i <;> rfl

/-- The same, at an index given as a number. -/
@[simp] theorem Memory.frame_getElem (m : Memory) (i : Nat) (h : i < 27) : m.frame[i] = m.read ⟨i, h⟩ :=
  m.frame_get ⟨i, h⟩

end Sys2Proof.Machine
end

