-- ==== Sys2Proof/Laws/State.lean ====
section
/-! SUPPORT. One lemma per field per update of the state: what each named write of Machine/Ops.lean leaves in each field. -/

namespace Sys2Proof.Machine

/-! ### withInputs -/

@[simp] theorem withInputs_st (is : List Input) (s : State) : (withInputs is s).st = s.st := rfl
@[simp] theorem withInputs_len (is : List Input) (s : State) : (withInputs is s).len = s.len := rfl
@[simp] theorem withInputs_buf (is : List Input) (s : State) : (withInputs is s).buf = s.buf := rfl
@[simp] theorem withInputs_evt (is : List Input) (s : State) : (withInputs is s).evt = s.evt := rfl
@[simp] theorem withInputs_recAmount (is : List Input) (s : State) : (withInputs is s).recAmount = s.recAmount := rfl
@[simp] theorem withInputs_recPiece (is : List Input) (s : State) : (withInputs is s).recPiece = s.recPiece := rfl
@[simp] theorem withInputs_recMachineActive (is : List Input) (s : State) : (withInputs is s).recMachineActive = s.recMachineActive := rfl
@[simp] theorem withInputs_recRejectActive (is : List Input) (s : State) : (withInputs is s).recRejectActive = s.recRejectActive := rfl
@[simp] theorem withInputs_frameOut (is : List Input) (s : State) : (withInputs is s).frameOut = s.frameOut := rfl
@[simp] theorem withInputs_frameErrCount (is : List Input) (s : State) : (withInputs is s).frameErrCount = s.frameErrCount := rfl
@[simp] theorem withInputs_parseErrCount (is : List Input) (s : State) : (withInputs is s).parseErrCount = s.parseErrCount := rfl
@[simp] theorem withInputs_errcntW (is : List Input) (s : State) : (withInputs is s).errcntW = s.errcntW := rfl
@[simp] theorem withInputs_inputs (is : List Input) (s : State) : (withInputs is s).inputs = is := rfl
@[simp] theorem withInputs_draws (is : List Input) (s : State) : (withInputs is s).draws = s.draws := rfl

/-! ### countDraw -/

@[simp] theorem countDraw_st (s : State) : (countDraw s).st = s.st := rfl
@[simp] theorem countDraw_len (s : State) : (countDraw s).len = s.len := rfl
@[simp] theorem countDraw_buf (s : State) : (countDraw s).buf = s.buf := rfl
@[simp] theorem countDraw_evt (s : State) : (countDraw s).evt = s.evt := rfl
@[simp] theorem countDraw_recAmount (s : State) : (countDraw s).recAmount = s.recAmount := rfl
@[simp] theorem countDraw_recPiece (s : State) : (countDraw s).recPiece = s.recPiece := rfl
@[simp] theorem countDraw_recMachineActive (s : State) : (countDraw s).recMachineActive = s.recMachineActive := rfl
@[simp] theorem countDraw_recRejectActive (s : State) : (countDraw s).recRejectActive = s.recRejectActive := rfl
@[simp] theorem countDraw_frameOut (s : State) : (countDraw s).frameOut = s.frameOut := rfl
@[simp] theorem countDraw_frameErrCount (s : State) : (countDraw s).frameErrCount = s.frameErrCount := rfl
@[simp] theorem countDraw_parseErrCount (s : State) : (countDraw s).parseErrCount = s.parseErrCount := rfl
@[simp] theorem countDraw_errcntW (s : State) : (countDraw s).errcntW = s.errcntW := rfl
@[simp] theorem countDraw_inputs (s : State) : (countDraw s).inputs = s.inputs := rfl
@[simp] theorem countDraw_draws (s : State) : (countDraw s).draws = s.draws + 1 := rfl

/-! ### emit -/

@[simp] theorem emit_st (e : Event) (s : State) : (emit e s).st = s.st := rfl
@[simp] theorem emit_len (e : Event) (s : State) : (emit e s).len = s.len := rfl
@[simp] theorem emit_buf (e : Event) (s : State) : (emit e s).buf = s.buf := rfl
@[simp] theorem emit_evt (e : Event) (s : State) : (emit e s).evt = e := rfl
@[simp] theorem emit_recAmount (e : Event) (s : State) : (emit e s).recAmount = s.recAmount := rfl
@[simp] theorem emit_recPiece (e : Event) (s : State) : (emit e s).recPiece = s.recPiece := rfl
@[simp] theorem emit_recMachineActive (e : Event) (s : State) : (emit e s).recMachineActive = s.recMachineActive := rfl
@[simp] theorem emit_recRejectActive (e : Event) (s : State) : (emit e s).recRejectActive = s.recRejectActive := rfl
@[simp] theorem emit_frameOut (e : Event) (s : State) : (emit e s).frameOut = s.frameOut := rfl
@[simp] theorem emit_frameErrCount (e : Event) (s : State) : (emit e s).frameErrCount = s.frameErrCount := rfl
@[simp] theorem emit_parseErrCount (e : Event) (s : State) : (emit e s).parseErrCount = s.parseErrCount := rfl
@[simp] theorem emit_errcntW (e : Event) (s : State) : (emit e s).errcntW = s.errcntW := rfl
@[simp] theorem emit_inputs (e : Event) (s : State) : (emit e s).inputs = s.inputs := rfl
@[simp] theorem emit_draws (e : Event) (s : State) : (emit e s).draws = s.draws := rfl

/-! ### enterWaiting -/

@[simp] theorem enterWaiting_st (s : State) : (enterWaiting s).st = .waitingForStart := rfl
@[simp] theorem enterWaiting_len (s : State) : (enterWaiting s).len = 0 := rfl
@[simp] theorem enterWaiting_buf (s : State) : (enterWaiting s).buf = s.buf := rfl
@[simp] theorem enterWaiting_evt (s : State) : (enterWaiting s).evt = s.evt := rfl
@[simp] theorem enterWaiting_recAmount (s : State) : (enterWaiting s).recAmount = s.recAmount := rfl
@[simp] theorem enterWaiting_recPiece (s : State) : (enterWaiting s).recPiece = s.recPiece := rfl
@[simp] theorem enterWaiting_recMachineActive (s : State) : (enterWaiting s).recMachineActive = s.recMachineActive := rfl
@[simp] theorem enterWaiting_recRejectActive (s : State) : (enterWaiting s).recRejectActive = s.recRejectActive := rfl
@[simp] theorem enterWaiting_frameOut (s : State) : (enterWaiting s).frameOut = s.frameOut := rfl
@[simp] theorem enterWaiting_frameErrCount (s : State) : (enterWaiting s).frameErrCount = s.frameErrCount := rfl
@[simp] theorem enterWaiting_parseErrCount (s : State) : (enterWaiting s).parseErrCount = s.parseErrCount := rfl
@[simp] theorem enterWaiting_errcntW (s : State) : (enterWaiting s).errcntW = s.errcntW := rfl
@[simp] theorem enterWaiting_inputs (s : State) : (enterWaiting s).inputs = s.inputs := rfl
@[simp] theorem enterWaiting_draws (s : State) : (enterWaiting s).draws = s.draws := rfl

/-! ### enterReading -/

@[simp] theorem enterReading_st (s : State) : (enterReading s).st = .readingPayload := rfl
@[simp] theorem enterReading_len (s : State) : (enterReading s).len = 0 := rfl
@[simp] theorem enterReading_buf (s : State) : (enterReading s).buf = s.buf := rfl
@[simp] theorem enterReading_evt (s : State) : (enterReading s).evt = s.evt := rfl
@[simp] theorem enterReading_recAmount (s : State) : (enterReading s).recAmount = s.recAmount := rfl
@[simp] theorem enterReading_recPiece (s : State) : (enterReading s).recPiece = s.recPiece := rfl
@[simp] theorem enterReading_recMachineActive (s : State) : (enterReading s).recMachineActive = s.recMachineActive := rfl
@[simp] theorem enterReading_recRejectActive (s : State) : (enterReading s).recRejectActive = s.recRejectActive := rfl
@[simp] theorem enterReading_frameOut (s : State) : (enterReading s).frameOut = s.frameOut := rfl
@[simp] theorem enterReading_frameErrCount (s : State) : (enterReading s).frameErrCount = s.frameErrCount := rfl
@[simp] theorem enterReading_parseErrCount (s : State) : (enterReading s).parseErrCount = s.parseErrCount := rfl
@[simp] theorem enterReading_errcntW (s : State) : (enterReading s).errcntW = s.errcntW := rfl
@[simp] theorem enterReading_inputs (s : State) : (enterReading s).inputs = s.inputs := rfl
@[simp] theorem enterReading_draws (s : State) : (enterReading s).draws = s.draws := rfl

/-! ### appendByte -/

@[simp] theorem appendByte_st (i : Fin 27) (b : Byte) (s : State) : (appendByte i b s).st = s.st := rfl
@[simp] theorem appendByte_len (i : Fin 27) (b : Byte) (s : State) : (appendByte i b s).len = s.len + 1 := rfl
@[simp] theorem appendByte_buf (i : Fin 27) (b : Byte) (s : State) : (appendByte i b s).buf = s.buf.write i b := rfl
@[simp] theorem appendByte_evt (i : Fin 27) (b : Byte) (s : State) : (appendByte i b s).evt = s.evt := rfl
@[simp] theorem appendByte_recAmount (i : Fin 27) (b : Byte) (s : State) : (appendByte i b s).recAmount = s.recAmount := rfl
@[simp] theorem appendByte_recPiece (i : Fin 27) (b : Byte) (s : State) : (appendByte i b s).recPiece = s.recPiece := rfl
@[simp] theorem appendByte_recMachineActive (i : Fin 27) (b : Byte) (s : State) : (appendByte i b s).recMachineActive = s.recMachineActive := rfl
@[simp] theorem appendByte_recRejectActive (i : Fin 27) (b : Byte) (s : State) : (appendByte i b s).recRejectActive = s.recRejectActive := rfl
@[simp] theorem appendByte_frameOut (i : Fin 27) (b : Byte) (s : State) : (appendByte i b s).frameOut = s.frameOut := rfl
@[simp] theorem appendByte_frameErrCount (i : Fin 27) (b : Byte) (s : State) : (appendByte i b s).frameErrCount = s.frameErrCount := rfl
@[simp] theorem appendByte_parseErrCount (i : Fin 27) (b : Byte) (s : State) : (appendByte i b s).parseErrCount = s.parseErrCount := rfl
@[simp] theorem appendByte_errcntW (i : Fin 27) (b : Byte) (s : State) : (appendByte i b s).errcntW = s.errcntW := rfl
@[simp] theorem appendByte_inputs (i : Fin 27) (b : Byte) (s : State) : (appendByte i b s).inputs = s.inputs := rfl
@[simp] theorem appendByte_draws (i : Fin 27) (b : Byte) (s : State) : (appendByte i b s).draws = s.draws := rfl

/-! ### saturateLen -/

@[simp] theorem saturateLen_st (s : State) : (saturateLen s).st = s.st := rfl
@[simp] theorem saturateLen_len (s : State) : (saturateLen s).len = Config.lenSaturated := rfl
@[simp] theorem saturateLen_buf (s : State) : (saturateLen s).buf = s.buf := rfl
@[simp] theorem saturateLen_evt (s : State) : (saturateLen s).evt = s.evt := rfl
@[simp] theorem saturateLen_recAmount (s : State) : (saturateLen s).recAmount = s.recAmount := rfl
@[simp] theorem saturateLen_recPiece (s : State) : (saturateLen s).recPiece = s.recPiece := rfl
@[simp] theorem saturateLen_recMachineActive (s : State) : (saturateLen s).recMachineActive = s.recMachineActive := rfl
@[simp] theorem saturateLen_recRejectActive (s : State) : (saturateLen s).recRejectActive = s.recRejectActive := rfl
@[simp] theorem saturateLen_frameOut (s : State) : (saturateLen s).frameOut = s.frameOut := rfl
@[simp] theorem saturateLen_frameErrCount (s : State) : (saturateLen s).frameErrCount = s.frameErrCount := rfl
@[simp] theorem saturateLen_parseErrCount (s : State) : (saturateLen s).parseErrCount = s.parseErrCount := rfl
@[simp] theorem saturateLen_errcntW (s : State) : (saturateLen s).errcntW = s.errcntW := rfl
@[simp] theorem saturateLen_inputs (s : State) : (saturateLen s).inputs = s.inputs := rfl
@[simp] theorem saturateLen_draws (s : State) : (saturateLen s).draws = s.draws := rfl

/-! ### forwardFrame -/

@[simp] theorem forwardFrame_st (s : State) : (forwardFrame s).st = s.st := rfl
@[simp] theorem forwardFrame_len (s : State) : (forwardFrame s).len = s.len := rfl
@[simp] theorem forwardFrame_buf (s : State) : (forwardFrame s).buf = s.buf := rfl
@[simp] theorem forwardFrame_evt (s : State) : (forwardFrame s).evt = s.evt := rfl
@[simp] theorem forwardFrame_recAmount (s : State) : (forwardFrame s).recAmount = s.recAmount := rfl
@[simp] theorem forwardFrame_recPiece (s : State) : (forwardFrame s).recPiece = s.recPiece := rfl
@[simp] theorem forwardFrame_recMachineActive (s : State) : (forwardFrame s).recMachineActive = s.recMachineActive := rfl
@[simp] theorem forwardFrame_recRejectActive (s : State) : (forwardFrame s).recRejectActive = s.recRejectActive := rfl
@[simp] theorem forwardFrame_frameOut (s : State) : (forwardFrame s).frameOut = s.buf.frame := rfl
@[simp] theorem forwardFrame_frameErrCount (s : State) : (forwardFrame s).frameErrCount = s.frameErrCount := rfl
@[simp] theorem forwardFrame_parseErrCount (s : State) : (forwardFrame s).parseErrCount = s.parseErrCount := rfl
@[simp] theorem forwardFrame_errcntW (s : State) : (forwardFrame s).errcntW = s.errcntW := rfl
@[simp] theorem forwardFrame_inputs (s : State) : (forwardFrame s).inputs = s.inputs := rfl
@[simp] theorem forwardFrame_draws (s : State) : (forwardFrame s).draws = s.draws := rfl

/-! ### loadRecord -/

@[simp] theorem loadRecord_st (r : Record) (s : State) : (loadRecord r s).st = s.st := rfl
@[simp] theorem loadRecord_len (r : Record) (s : State) : (loadRecord r s).len = s.len := rfl
@[simp] theorem loadRecord_buf (r : Record) (s : State) : (loadRecord r s).buf = s.buf := rfl
@[simp] theorem loadRecord_evt (r : Record) (s : State) : (loadRecord r s).evt = s.evt := rfl
@[simp] theorem loadRecord_recAmount (r : Record) (s : State) : (loadRecord r s).recAmount = r.amount := rfl
@[simp] theorem loadRecord_recPiece (r : Record) (s : State) : (loadRecord r s).recPiece = r.pieceCountRaw := rfl
@[simp] theorem loadRecord_recMachineActive (r : Record) (s : State) : (loadRecord r s).recMachineActive = r.machineActive := rfl
@[simp] theorem loadRecord_recRejectActive (r : Record) (s : State) : (loadRecord r s).recRejectActive = r.rejectSensorActive := rfl
@[simp] theorem loadRecord_frameOut (r : Record) (s : State) : (loadRecord r s).frameOut = s.frameOut := rfl
@[simp] theorem loadRecord_frameErrCount (r : Record) (s : State) : (loadRecord r s).frameErrCount = s.frameErrCount := rfl
@[simp] theorem loadRecord_parseErrCount (r : Record) (s : State) : (loadRecord r s).parseErrCount = s.parseErrCount := rfl
@[simp] theorem loadRecord_errcntW (r : Record) (s : State) : (loadRecord r s).errcntW = s.errcntW := rfl
@[simp] theorem loadRecord_inputs (r : Record) (s : State) : (loadRecord r s).inputs = s.inputs := rfl
@[simp] theorem loadRecord_draws (r : Record) (s : State) : (loadRecord r s).draws = s.draws := rfl

/-! ### countFrameError -/

@[simp] theorem countFrameError_st (s : State) : (countFrameError s).st = s.st := rfl
@[simp] theorem countFrameError_len (s : State) : (countFrameError s).len = s.len := rfl
@[simp] theorem countFrameError_buf (s : State) : (countFrameError s).buf = s.buf := rfl
@[simp] theorem countFrameError_evt (s : State) : (countFrameError s).evt = s.evt := rfl
@[simp] theorem countFrameError_recAmount (s : State) : (countFrameError s).recAmount = s.recAmount := rfl
@[simp] theorem countFrameError_recPiece (s : State) : (countFrameError s).recPiece = s.recPiece := rfl
@[simp] theorem countFrameError_recMachineActive (s : State) : (countFrameError s).recMachineActive = s.recMachineActive := rfl
@[simp] theorem countFrameError_recRejectActive (s : State) : (countFrameError s).recRejectActive = s.recRejectActive := rfl
@[simp] theorem countFrameError_frameOut (s : State) : (countFrameError s).frameOut = s.frameOut := rfl
@[simp] theorem countFrameError_frameErrCount (s : State) : (countFrameError s).frameErrCount = bumpCount s.errcntW s.frameErrCount := rfl
@[simp] theorem countFrameError_parseErrCount (s : State) : (countFrameError s).parseErrCount = s.parseErrCount := rfl
@[simp] theorem countFrameError_errcntW (s : State) : (countFrameError s).errcntW = s.errcntW := rfl
@[simp] theorem countFrameError_inputs (s : State) : (countFrameError s).inputs = s.inputs := rfl
@[simp] theorem countFrameError_draws (s : State) : (countFrameError s).draws = s.draws := rfl

/-! ### countParseError -/

@[simp] theorem countParseError_st (s : State) : (countParseError s).st = s.st := rfl
@[simp] theorem countParseError_len (s : State) : (countParseError s).len = s.len := rfl
@[simp] theorem countParseError_buf (s : State) : (countParseError s).buf = s.buf := rfl
@[simp] theorem countParseError_evt (s : State) : (countParseError s).evt = s.evt := rfl
@[simp] theorem countParseError_recAmount (s : State) : (countParseError s).recAmount = s.recAmount := rfl
@[simp] theorem countParseError_recPiece (s : State) : (countParseError s).recPiece = s.recPiece := rfl
@[simp] theorem countParseError_recMachineActive (s : State) : (countParseError s).recMachineActive = s.recMachineActive := rfl
@[simp] theorem countParseError_recRejectActive (s : State) : (countParseError s).recRejectActive = s.recRejectActive := rfl
@[simp] theorem countParseError_frameOut (s : State) : (countParseError s).frameOut = s.frameOut := rfl
@[simp] theorem countParseError_frameErrCount (s : State) : (countParseError s).frameErrCount = s.frameErrCount := rfl
@[simp] theorem countParseError_parseErrCount (s : State) : (countParseError s).parseErrCount = bumpCount s.errcntW s.parseErrCount := rfl
@[simp] theorem countParseError_errcntW (s : State) : (countParseError s).errcntW = s.errcntW := rfl
@[simp] theorem countParseError_inputs (s : State) : (countParseError s).inputs = s.inputs := rfl
@[simp] theorem countParseError_draws (s : State) : (countParseError s).draws = s.draws := rfl

/-! ### clearOutputs -/

@[simp] theorem clearOutputs_st (s : State) : (clearOutputs s).st = s.st := rfl
@[simp] theorem clearOutputs_len (s : State) : (clearOutputs s).len = s.len := rfl
@[simp] theorem clearOutputs_buf (s : State) : (clearOutputs s).buf = s.buf := rfl
@[simp] theorem clearOutputs_evt (s : State) : (clearOutputs s).evt = s.evt := rfl
@[simp] theorem clearOutputs_recAmount (s : State) : (clearOutputs s).recAmount = 0 := rfl
@[simp] theorem clearOutputs_recPiece (s : State) : (clearOutputs s).recPiece = 0 := rfl
@[simp] theorem clearOutputs_recMachineActive (s : State) : (clearOutputs s).recMachineActive = false := rfl
@[simp] theorem clearOutputs_recRejectActive (s : State) : (clearOutputs s).recRejectActive = false := rfl
@[simp] theorem clearOutputs_frameOut (s : State) : (clearOutputs s).frameOut = Vector.replicate 27 0x00 := rfl
@[simp] theorem clearOutputs_frameErrCount (s : State) : (clearOutputs s).frameErrCount = 0 := rfl
@[simp] theorem clearOutputs_parseErrCount (s : State) : (clearOutputs s).parseErrCount = 0 := rfl
@[simp] theorem clearOutputs_errcntW (s : State) : (clearOutputs s).errcntW = s.errcntW := rfl
@[simp] theorem clearOutputs_inputs (s : State) : (clearOutputs s).inputs = s.inputs := rfl
@[simp] theorem clearOutputs_draws (s : State) : (clearOutputs s).draws = s.draws := rfl

/-! ### Sampling the inputs changes no element of R20 -/

@[simp] theorem afterSample_st (s : State) : (afterSample s).st = s.st := by
  unfold afterSample; split <;> rfl
@[simp] theorem afterSample_len (s : State) : (afterSample s).len = s.len := by
  unfold afterSample; split <;> rfl
@[simp] theorem afterSample_buf (s : State) : (afterSample s).buf = s.buf := by
  unfold afterSample; split <;> rfl
@[simp] theorem afterSample_evt (s : State) : (afterSample s).evt = s.evt := by
  unfold afterSample; split <;> rfl
@[simp] theorem afterSample_recAmount (s : State) : (afterSample s).recAmount = s.recAmount := by
  unfold afterSample; split <;> rfl
@[simp] theorem afterSample_recPiece (s : State) : (afterSample s).recPiece = s.recPiece := by
  unfold afterSample; split <;> rfl
@[simp] theorem afterSample_recMachineActive (s : State) : (afterSample s).recMachineActive = s.recMachineActive := by
  unfold afterSample; split <;> rfl
@[simp] theorem afterSample_recRejectActive (s : State) : (afterSample s).recRejectActive = s.recRejectActive := by
  unfold afterSample; split <;> rfl
@[simp] theorem afterSample_frameOut (s : State) : (afterSample s).frameOut = s.frameOut := by
  unfold afterSample; split <;> rfl
@[simp] theorem afterSample_frameErrCount (s : State) : (afterSample s).frameErrCount = s.frameErrCount := by
  unfold afterSample; split <;> rfl
@[simp] theorem afterSample_parseErrCount (s : State) : (afterSample s).parseErrCount = s.parseErrCount := by
  unfold afterSample; split <;> rfl
@[simp] theorem afterSample_errcntW (s : State) : (afterSample s).errcntW = s.errcntW := by
  unfold afterSample; split <;> rfl

/-- With an input lined up, that input is sampled. -/
theorem sampledInput_cons {s : State} {i : Input} {rest : List Input} (h : s.inputs = i :: rest) :
    sampledInput s = i := by
  unfold sampledInput; rw [h]

/-- With an input lined up, sampling takes it off the list and does nothing else. -/
theorem afterSample_cons {s : State} {i : Input} {rest : List Input} (h : s.inputs = i :: rest) :
    afterSample s = withInputs rest s := by
  unfold afterSample; rw [h]

/-- With none lined up, the input is the free value of this draw. -/
theorem sampledInput_nil {s : State} (h : s.inputs = []) : sampledInput s = Config.freeInput s.draws := by
  unfold sampledInput; rw [h]

/-- With none lined up, sampling counts one draw and does nothing else. -/
theorem afterSample_nil {s : State} (h : s.inputs = []) : afterSample s = countDraw s := by
  unfold afterSample; rw [h]

end Sys2Proof.Machine
end

