-- ==== Sys2Proof/Laws/Exec.lean ====
section
/-! SUPPORT. What the meanings can answer, said once: the three endings of READ_END, the two of READ_DATA, and the run
over a list of inputs one input at a time. -/

namespace Sys2Proof.Machine

/-- READ_END ends in exactly one of three ways: a wrong length, a record, a failed check (R84). -/
theorem execReadEnd_cases (s : State) :
    (s.len.toNat ≠ 27 ∧ execReadEnd s = .next (enterWaiting (emit .frameError (countFrameError s)))) ∨
    (∃ r, s.len.toNat = 27 ∧ extract s.buf.frame = .ok r ∧
      execReadEnd s = .next (enterWaiting (emit .record (loadRecord r (forwardFrame s))))) ∨
    (s.len.toNat = 27 ∧ extract s.buf.frame = .parseError ∧
      execReadEnd s = .next (enterWaiting (emit .parseError (countParseError (forwardFrame s))))) := by
  unfold execReadEnd
  by_cases hlen : s.len.toNat = Config.frameLen
  · simp only [hlen, if_true]
    cases hx : extract s.buf.frame with
    | ok r => exact .inr (.inl ⟨r, rfl, rfl, rfl⟩)
    | parseError => exact .inr (.inr ⟨rfl, rfl, rfl⟩)
  · rw [if_neg hlen]
    exact .inl ⟨hlen, rfl⟩

/-- READ_DATA stores its byte at the index `len`, or saturates `len` (R85). -/
theorem execReadData_cases (b : Byte) (s : State) :
    (∃ h : s.len.toNat < 27, storeIndex s = some ⟨s.len.toNat, h⟩ ∧
      execReadData b s = .next (emit .none (appendByte ⟨s.len.toNat, h⟩ b s))) ∨
    (¬ s.len.toNat < 27 ∧ storeIndex s = none ∧ execReadData b s = .next (emit .none (saturateLen s))) := by
  unfold execReadData storeIndex
  by_cases h : s.len.toNat < 27
  · exact .inl ⟨h, by simp [h], by simp [h]⟩
  · exact .inr ⟨h, by simp [h], by simp [h]⟩

/-- No operation faults or refuses (60_exceptions.md R145, R147). -/
theorem exec_answers (i : Instr) (s : State) : ∃ t, exec i s = .next t := by
  cases i with
  | reset => exact ⟨_, rfl⟩
  | resync => exact ⟨_, rfl⟩
  | idle => exact ⟨_, rfl⟩
  | waitStart => exact ⟨_, rfl⟩
  | waitNoise b => exact ⟨_, rfl⟩
  | readEnd =>
    show ∃ t, execReadEnd s = .next t
    rcases execReadEnd_cases s with ⟨-, h⟩ | ⟨r, -, -, h⟩ | ⟨-, -, h⟩ <;> exact ⟨_, h⟩
  | readData b =>
    show ∃ t, execReadData b s = .next t
    rcases execReadData_cases b s with ⟨_, -, h⟩ | ⟨-, -, h⟩ <;> exact ⟨_, h⟩

/-- A step with an input lined up is `Step` of that input. -/
theorem step_cons {s : State} {i : Input} {rest : List Input} (h : s.inputs = i :: rest) :
    step s = edge i (withInputs rest s) := by
  unfold step
  rw [sampledInput_cons h, afterSample_cons h]

/-- The run over no input stays where it is. -/
theorem runOn_nil (s : State) : runOn [] s = .next (withInputs [] s) := rfl

/-- No operation touches the list of inputs (log entry 1). -/
theorem exec_inputs {i : Instr} {s t : State} (h : exec i s = .next t) : t.inputs = s.inputs := by
  cases i with
  | reset => cases h; rfl
  | resync => cases h; rfl
  | idle => cases h; rfl
  | waitStart => cases h; rfl
  | waitNoise b => cases h; rfl
  | readEnd =>
    rcases execReadEnd_cases s with ⟨-, e⟩ | ⟨r, -, -, e⟩ | ⟨-, -, e⟩ <;> cases e.symm.trans h <;> rfl
  | readData b =>
    rcases execReadData_cases b s with ⟨_, -, e⟩ | ⟨-, -, e⟩ <;> cases e.symm.trans h <;> rfl

/-- No operation touches the count of drawn inputs (log entry 2). -/
theorem exec_draws {i : Instr} {s t : State} (h : exec i s = .next t) : t.draws = s.draws := by
  cases i with
  | reset => cases h; rfl
  | resync => cases h; rfl
  | idle => cases h; rfl
  | waitStart => cases h; rfl
  | waitNoise b => cases h; rfl
  | readEnd =>
    rcases execReadEnd_cases s with ⟨-, e⟩ | ⟨r, -, -, e⟩ | ⟨-, -, e⟩ <;> cases e.symm.trans h <;> rfl
  | readData b =>
    rcases execReadData_cases b s with ⟨_, -, e⟩ | ⟨-, -, e⟩ <;> cases e.symm.trans h <;> rfl

/-- What an operation does does not depend on what the environment has lined up (R20: the inputs are not kept). -/
theorem exec_with_inputs {i : Instr} {s t : State} (is : List Input) (h : exec i s = .next t) :
    exec i (withInputs is s) = .next (withInputs is t) := by
  cases i with
  | reset => cases h; rfl
  | resync => cases h; rfl
  | idle => cases h; rfl
  | waitStart => cases h; rfl
  | waitNoise b => cases h; rfl
  | readEnd =>
    have e := execReadEnd_cases (withInputs is s)
    rcases execReadEnd_cases s with ⟨hl, h'⟩ | ⟨r, hl, hx, h'⟩ | ⟨hl, hx, h'⟩ <;> cases h'.symm.trans h <;>
      rcases e with ⟨hl', e⟩ | ⟨r', hl', hx', e⟩ | ⟨hl', hx', e⟩
    · exact e
    · exact absurd hl' hl
    · exact absurd hl' hl
    · exact absurd hl hl'
    · cases hx.symm.trans hx'; exact e
    · cases hx.symm.trans hx'
    · exact absurd hl hl'
    · cases hx.symm.trans hx'
    · exact e
  | readData b =>
    have e := execReadData_cases b (withInputs is s)
    rcases execReadData_cases b s with ⟨hl, -, h'⟩ | ⟨hl, -, h'⟩ <;> cases h'.symm.trans h <;>
      rcases e with ⟨hl', -, e⟩ | ⟨hl', -, e⟩
    · exact e
    · exact absurd hl hl'
    · exact absurd hl' hl
    · exact e

/-- A run of one step and more is the run of the rest from the step's next state. -/
theorem run_succ {s t : State} (k : Nat) (h : step s = .next t) :
    Host.Core.run Sys2Proof.core (k + 1) s = Host.Core.run Sys2Proof.core k t := by
  have hc : Sys2Proof.core.step s = .next t := h
  simp only [Host.Core.run]
  rw [hc]

/-- The run over an input and more: `Step` of the input, then the run over the rest. -/
theorem runOn_cons {i : Input} {s t : State} (rest : List Input) (h : edge i s = .next t) :
    runOn (i :: rest) s = runOn rest t := by
  have he : edge i (withInputs rest s) = .next (withInputs rest t) := exec_with_inputs rest h
  exact run_succ rest.length ((step_cons (s := withInputs (i :: rest) s) rfl).trans he)

end Sys2Proof.Machine
end

