-- ==== Sys2Proof/Laws/OperationWord.lean ====
section
/-! SUPPORT. The fields of an operation word read back what it was formed from (30_encoding.md R61). -/

namespace Sys2Proof.Machine

theorem opwByte_operationWord (i : Input) (d : DecoderState) : opwByte (operationWord i d) = i.inByte := by
  apply BitVec.eq_of_getLsbD_eq
  intro k hk
  simp only [opwByte, BitVec.getLsbD_extractLsb', hk, decide_true, Bool.true_and, Nat.zero_add]
  show BitVec.getLsbD (w := 1 + 1 + 1 + 1 + 8) _ k = _
  simp only [operationWord, BitVec.getLsbD_append]
  simp [hk]

theorem operationWord_bit8 (i : Input) (d : DecoderState) :
    (operationWord i d).getLsbD 8 = decide (d = .readingPayload) := by
  show BitVec.getLsbD (w := 1 + 1 + 1 + 1 + 8) _ 8 = _
  simp only [operationWord, BitVec.getLsbD_append]
  cases d <;> simp [stCode]

theorem operationWord_bit9 (i : Input) (d : DecoderState) : (operationWord i d).getLsbD 9 = i.inValid := by
  show BitVec.getLsbD (w := 1 + 1 + 1 + 1 + 8) _ 9 = _
  simp only [operationWord, BitVec.getLsbD_append]
  simp

theorem operationWord_bit10 (i : Input) (d : DecoderState) : (operationWord i d).getLsbD 10 = i.resync := by
  show BitVec.getLsbD (w := 1 + 1 + 1 + 1 + 8) _ 10 = _
  simp only [operationWord, BitVec.getLsbD_append]
  simp

theorem operationWord_bit11 (i : Input) (d : DecoderState) : (operationWord i d).getLsbD 11 = i.rst := by
  show BitVec.getLsbD (w := 1 + 1 + 1 + 1 + 8) _ 11 = _
  simp only [operationWord, BitVec.getLsbD_append]
  simp

end Sys2Proof.Machine
end

