-- ==== Sys2Proof/Laws/PerInstr.lean ====
section
/-! SUPPORT. Statements about every instruction, one lemma per constructor of Instr. -/

namespace Sys2Proof

/-- The encoding of a well-formed operation lies in the operation's own row of the decode table and in no row of higher
priority (30_encoding.md R62). -/
def Laws.EncodeFits.Statement (i : Instr) : Prop :=
  i.WellFormed → ∀ r ∈ opcodeTable, r.priority ≤ priorityOf i →
    (rowSelects r (encode i) = true ↔ r.priority = priorityOf i)

theorem Laws.EncodeFits.reset : Laws.EncodeFits.Statement .reset := by
  unfold Laws.EncodeFits.Statement; decide

theorem Laws.EncodeFits.resync : Laws.EncodeFits.Statement .resync := by
  unfold Laws.EncodeFits.Statement; decide

theorem Laws.EncodeFits.idle : Laws.EncodeFits.Statement .idle := by
  unfold Laws.EncodeFits.Statement; decide

theorem Laws.EncodeFits.waitStart : Laws.EncodeFits.Statement .waitStart := by
  unfold Laws.EncodeFits.Statement; decide

theorem Laws.EncodeFits.waitNoise (b : Byte) : Laws.EncodeFits.Statement (.waitNoise b) := by
  unfold Laws.EncodeFits.Statement; revert b; decide

theorem Laws.EncodeFits.readEnd : Laws.EncodeFits.Statement .readEnd := by
  unfold Laws.EncodeFits.Statement; decide

theorem Laws.EncodeFits.readData (b : Byte) : Laws.EncodeFits.Statement (.readData b) := by
  unfold Laws.EncodeFits.Statement; revert b; decide

end Sys2Proof
end

