-- ==== Sys2Proof/Tests/Slice0.lean ====
section
/-! SUPPORT. Tests of single operations against the spec's own vectors (95_test_vectors.md), the WellFormed smoke tests,
words written out bit by bit from 30_encoding.md, and for every statement that has hypotheses a state and operands that
meet them. -/

namespace Sys2Proof.Tests

open Sys2Proof.Machine

/-! ### Helpers -/

/-- A buffer that holds these bytes from index 0 on. -/
def bufOf (bytes : List Byte) : Memory :=
  ⟨(bytes.zipIdx.filter fun c => c.1 != Memory.unlisted).map fun c => (c.2, c.1)⟩

/-- A decoder inside a frame, after these payload bytes. -/
def midFrame (bytes : List Byte) : State :=
  { State.reset with st := .readingPayload, len := BitVec.ofNat 5 bytes.length, buf := bufOf bytes }

/-- The next state an outcome gives, if it gives one. -/
def nextOf : Host.Outcome State Fault Refusal → Option State
  | .next t => some t
  | .fault _ => none
  | .refused _ => none

/-- Payload PA of 95_test_vectors.md section 2. -/
def payloadA : Frame := #v[0x30, 0x30, 0x31, 0x30, 0x30, 0x31, 0x30, 0x30, 0x30, 0x30, 0x30, 0x30, 0x30, 0x30, 0x30,
  0x30, 0x30, 0x31, 0x30, 0x30, 0x30, 0x30, 0x30, 0x39, 0x39, 0x39, 0x35]

/-- Payload PC. -/
def payloadC : Frame := #v[0x30, 0x30, 0x58, 0x30, 0x30, 0x32, 0x30, 0x39, 0x39, 0x39, 0x39, 0x39, 0x39, 0x39, 0x39,
  0x39, 0x39, 0x39, 0x39, 0x39, 0x41, 0x42, 0x43, 0x39, 0x39, 0x39, 0x39]

/-- Payload PD. -/
def payloadD : Frame := #v[0x30, 0x30, 0x30, 0x30, 0x30, 0x31, 0x30, 0x31, 0x32, 0x33, 0x34, 0x35, 0x36, 0x37, 0x38,
  0x39, 0x30, 0x31, 0x32, 0x33, 0x30, 0x30, 0x30, 0x30, 0x30, 0x30, 0x35]

/-- Payload PE: a sign at index 7. -/
def payloadE : Frame := #v[0x30, 0x30, 0x31, 0x30, 0x30, 0x31, 0x30, 0x2B, 0x30, 0x30, 0x30, 0x30, 0x30, 0x30, 0x30,
  0x30, 0x30, 0x31, 0x30, 0x30, 0x30, 0x30, 0x30, 0x39, 0x39, 0x39, 0x35]

/-- Payload PG: 0x80 at the unused index 0. -/
def payloadG : Frame := #v[0x80, 0x30, 0x31, 0x30, 0x30, 0x31, 0x30, 0x30, 0x30, 0x30, 0x30, 0x30, 0x30, 0x30, 0x30,
  0x30, 0x30, 0x31, 0x30, 0x30, 0x30, 0x30, 0x30, 0x39, 0x39, 0x39, 0x35]

/-- Payload PJ: control bytes at unused indices. -/
def payloadJ : Frame := #v[0x00, 0x30, 0x31, 0x30, 0x30, 0x31, 0x30, 0x30, 0x30, 0x30, 0x30, 0x30, 0x30, 0x30, 0x30,
  0x30, 0x30, 0x31, 0x30, 0x30, 0x7F, 0x30, 0x30, 0x39, 0x39, 0x39, 0x35]

/-- Payload PL: a space at index 2, `'0'` at index 5. -/
def payloadL : Frame := #v[0x30, 0x30, 0x20, 0x30, 0x30, 0x30, 0x30, 0x30, 0x30, 0x30, 0x30, 0x30, 0x30, 0x30, 0x30,
  0x30, 0x30, 0x31, 0x30, 0x30, 0x30, 0x30, 0x30, 0x39, 0x39, 0x39, 0x35]

/-! ### WellFormed smoke tests: one ill-formed term for each check -/

theorem test_waitNoise_start_marker_ill_formed : ¬ (Instr.waitNoise 0x02).WellFormed := by decide

theorem test_readData_end_marker_ill_formed : ¬ (Instr.readData 0x03).WellFormed := by decide

theorem test_markers_well_formed_in_the_other_state :
    (Instr.waitNoise 0x03).WellFormed ∧ (Instr.readData 0x02).WellFormed := by decide

/-! ### Words written out from 30_encoding.md R61: rst, resync, in_valid, st, in_byte -/

theorem test_decode_reset : decode 0b1_0_0_0_00000000 = .reset ∧ decode 0b1_1_1_1_11111111 = .reset := by decide

theorem test_decode_resync : decode 0b0_1_0_0_00000000 = .resync ∧ decode 0b0_1_1_1_11111111 = .resync := by decide

theorem test_decode_idle : decode 0b0_0_0_0_00000000 = .idle ∧ decode 0b0_0_0_1_00000011 = .idle := by decide

theorem test_decode_waitStart : decode 0b0_0_1_0_00000010 = .waitStart := by decide

theorem test_decode_waitNoise : decode 0b0_0_1_0_00000011 = .waitNoise 0x03 ∧
    decode 0b0_0_1_0_11111111 = .waitNoise 0xFF := by decide

theorem test_decode_readEnd : decode 0b0_0_1_1_00000011 = .readEnd := by decide

theorem test_decode_readData : decode 0b0_0_1_1_00000010 = .readData 0x02 ∧
    decode 0b0_0_1_1_10000000 = .readData 0x80 := by decide

theorem test_decode_rejects_a_thirteenth_bit :
    decodeNumber 0x1000 = .error .moreThanTwelveBits ∧ decodeTableWord 16 0x1000 = none := ⟨rfl, rfl⟩

theorem test_decodeTableWord : decodeTableWord 16 0x303 = some .readEnd := by decide

theorem test_operationWord : operationWord (byteInput 0x03) .readingPayload = 0x303 := by decide

/-! ### Single operations -/

/-- R170: from the middle of a frame with counts, RESET clears. -/
theorem test_reset : (nextOf (exec .reset { midFrame [0x31] with frameErrCount := 7, recPiece := 5 })).map
    (fun t => (t.st, t.len, t.frameErrCount, t.recPiece)) = some (.waitingForStart, 0, 0, 0) := by decide

/-- R86, its example: from `len` = 12; the counter is kept. -/
theorem test_resync : (nextOf (exec .resync { midFrame (List.replicate 12 0x30) with frameErrCount := 7 })).map
    (fun t => (t.st, t.len, t.evt, t.frameErrCount)) = some (.waitingForStart, 0, .none, 7) := by decide

/-- R87, its example: from `len` = 5. -/
theorem test_idle : (nextOf (exec .idle { midFrame (List.replicate 5 0x30) with evt := .record })).map
    (fun t => (t.st, t.len, t.evt)) = some (.readingPayload, 5, .none) := by decide

/-- R82, its example. -/
theorem test_waitStart : (nextOf (exec .waitStart State.reset)).map (fun t => (t.st, t.len, t.evt)) =
    some (.readingPayload, 0, .none) := by decide

/-- R83, its example: an end marker outside a frame. -/
theorem test_waitNoise : (nextOf (step { State.reset with inputs := [etxInput] })).map
    (fun t => (t.st, t.len, t.evt, t.inputs)) = some (.waitingForStart, 0, .none, []) := by decide

/-- R85, its example: from `len` = 4, byte 0x35. -/
theorem test_readData : (nextOf (exec (.readData 0x35) (midFrame [0x30, 0x30, 0x30, 0x30]))).map
    (fun t => (t.len, t.buf.read 4, t.buf.read 3)) = some (5, 0x35, 0x30) := by decide

/-- R85: the 28th byte is not stored and `len` saturates. -/
theorem test_readData_saturates : (nextOf (exec (.readData 0x35) (midFrame payloadA.toList))).map
    (fun t => (t.len, t.buf.read 26)) = some (28, 0x35) := by decide

/-- R84, its example and vector V5. -/
theorem test_readEnd_record : (nextOf (exec .readEnd (midFrame payloadA.toList))).map
    (fun t => (t.evt, t.recAmount, t.recPiece, t.recMachineActive, t.recRejectActive)) =
      some (.record, 100, 9995, true, true) := by decide

/-- Vectors V3 and V20's wrap: an empty frame, `ERRCNT_W` = 2, the counter at 3. -/
theorem test_readEnd_frame_error_wraps :
    (nextOf (exec .readEnd { midFrame [] with errcntW := 2, frameErrCount := 3 })).map
      (fun t => (t.evt, t.st, t.frameErrCount)) = some (.frameError, .waitingForStart, 0) := by decide

/-- Vector V13: PE is a ParseError, `frame_out` is PE, the record registers keep their values. -/
theorem test_readEnd_parse_error : (nextOf (exec .readEnd { midFrame payloadE.toList with recPiece := 5 })).map
    (fun t => (t.evt, t.parseErrCount, t.recPiece, t.frameOut)) = some (.parseError, 1, 5, payloadE) := by decide

/-- R31: byte 0 of `frame_out` on bits 7..0, byte 26 on bits 215..208; V5's strobes. -/
theorem test_outputs :
    let o := { State.reset with frameOut := payloadC, evt := .record }.outputs
    (o.frameOut.extractLsb' 208 8, o.frameOut.extractLsb' 16 8, o.evt, o.recValid, o.frameValid, o.frameErr) =
      (0x39, 0x58, 1, true, true, false) := by decide

/-! ### The extractor: vectors of 95_test_vectors.md section 3 -/

/-- X3: the largest values; `X` at index 2 is active, `2` at index 5 is not. -/
theorem test_extract_largest : extract payloadC =
    .ok { amount := 9999999999999, pieceCountRaw := 9999, machineActive := true, rejectSensorActive := false } := by
  decide

/-- X4: the digit order, and R121's builder. -/
theorem test_extract_digit_order : extract payloadD =
    .ok { amount := 1234567890123, pieceCountRaw := 5, machineActive := false, rejectSensorActive := true } := by
  decide

theorem test_payload_builder : payload 0x30 0x31 1234567890123 5
    { f0 := 0x30, f1 := 0x30, f3 := 0x30, f4 := 0x30, f6 := 0x30, f20 := 0x30, f21 := 0x30, f22 := 0x30 } = payloadD := by
  decide

/-- X7, X10 and X12. -/
theorem test_extract_ascii_checks : extract payloadG = .parseError ∧
    extract payloadJ = .ok { amount := 100, pieceCountRaw := 9995, machineActive := true, rejectSensorActive := true } ∧
    extract payloadL = .ok { amount := 100, pieceCountRaw := 9995, machineActive := true, rejectSensorActive := false } := by
  decide

/-! ### Witnesses: for every statement with hypotheses, a state and operands that meet them -/

/-- IDLE of 30_encoding.md R70. -/
def idleInput : Input := { rst := false, resync := false, inValid := false, inByte := 0x00 }

/-- RESYNC of R70, with a start marker presented. -/
def resyncInput : Input := { rst := false, resync := true, inValid := true, inByte := 0x02 }

/-- RESET of R70, with a byte presented. -/
def resetInput : Input := { rst := true, resync := true, inValid := true, inByte := 0x02 }

theorem wit_DecodeSelectsFirstTableRow : decode 0x203 = .waitNoise 0x03 ∧ decode 0x302 = .readData 0x02 := by decide

theorem wit_DecodeOfEncode : Instr.reset.WellFormed ∧ (Instr.waitNoise 0x01).WellFormed ∧
    (Instr.waitNoise 0x03).WellFormed ∧ (Instr.readData 0x02).WellFormed ∧ (Instr.readData 0x04).WellFormed := by decide

theorem wit_StepRunsDecodedOperation :
    { State.reset with inputs := [stxInput] }.inputs = stxInput :: [] ∧ State.reset.inputs = [] := ⟨rfl, rfl⟩

theorem wit_FetchedWordRuns : 0x303 < 4096 ∧ (nextOf (step (State.reset.withFetchWord 16 0x303))).map
    (fun t => (t.evt, t.inputs)) = some (.frameError, []) := by decide

theorem wit_RunIsSequential : ∃ t, runOn [stxInput] State.reset = .next t := ⟨_, rfl⟩

theorem wit_DontCareInputsIgnored_rst : resetInput.rst = true ∧ { resetInput with inByte := 0x03 } ≠ resetInput := by
  decide

theorem wit_DontCareInputsIgnored_resync : resyncInput.rst = false ∧ resyncInput.resync = true ∧
    { resyncInput with inValid := false } ≠ resyncInput := by decide

theorem wit_DontCareInputsIgnored_idle : idleInput.inValid = false ∧ { idleInput with inByte := 0x03 } ≠ idleInput := by
  decide

theorem wit_ByteLostUnderResetOrResync : (resetInput.rst = true ∧ resetInput.inValid = true) ∧
    (resyncInput.rst = false ∧ resyncInput.resync = true ∧ resyncInput.inValid = true) := by decide

theorem wit_ResetWritesResetValues : resetInput.rst = true := rfl

theorem wit_ResyncReturnsToWaiting : State.reset.st = .waitingForStart ∧ State.reset.len = 0 ∧
    resyncInput.rst = false ∧ resyncInput.resync = true := by decide

theorem wit_IdleWritesEventOnly : idleInput.rst = false ∧ idleInput.resync = false ∧ idleInput.inValid = false := by decide

theorem wit_WaitStartEntersReading : State.reset.st = .waitingForStart := rfl

theorem wit_WaitNoiseDiscardsByte : State.reset.st = .waitingForStart ∧ (0x01 : Byte) ≠ 0x02 ∧ (0x03 : Byte) ≠ 0x02 := by
  decide

/-- `len` = 27 with a good and a bad frame, `len` = 26 and `len` = 28. -/
theorem wit_ReadEndClosesFrame : (midFrame payloadA.toList).st = .readingPayload ∧
    (midFrame payloadA.toList).len = 27 ∧ extract (midFrame payloadA.toList).buf.frame ≠ .parseError ∧
    (midFrame payloadE.toList).len = 27 ∧ extract (midFrame payloadE.toList).buf.frame = .parseError ∧
    (midFrame (List.replicate 26 0x30)).len ≠ 27 ∧ (midFrame (List.replicate 28 0x30)).len ≠ 27 := by decide

/-- `len` = 0, `len` = 26 (the last byte stored) and `len` = 27 (the first not stored). -/
theorem wit_ReadDataAppendsByte : (midFrame []).buf.wf ∧ storeIndex (midFrame []) = some 0 ∧
    (midFrame (List.replicate 26 0x30)).buf.wf ∧ storeIndex (midFrame (List.replicate 26 0x30)) = some 26 ∧
    storeIndex (midFrame (List.replicate 26 0x30)) ≠ some 25 ∧
    (midFrame payloadA.toList).buf.wf ∧ storeIndex (midFrame payloadA.toList) = none ∧
    27 ≤ (midFrame payloadA.toList).len.toNat ∧
    (midFrame []).st = .readingPayload ∧ (0x02 : Byte) ≠ 0x03 ∧ (0x04 : Byte) ≠ 0x03 := by decide

theorem wit_EdgeLeavesEventCode : operationOf idleInput (midFrame []) ≠ .readEnd ∧
    operationOf etxInput (midFrame []) = .readEnd ∧ (midFrame []).len ≠ 27 ∧
    operationOf etxInput (midFrame payloadA.toList) = .readEnd ∧ (midFrame payloadA.toList).len = 27 ∧
    operationOf etxInput (midFrame payloadE.toList) = .readEnd ∧
    extract (midFrame payloadE.toList).buf.frame = .parseError := by decide

theorem wit_EdgeLeavesEventCode_record : ∃ r, extract (midFrame payloadA.toList).buf.frame = .ok r := ⟨_, rfl⟩

theorem wit_FrameErrorCounterCounts : operationOf etxInput (midFrame []) = .readEnd ∧ (midFrame []).len ≠ 27 ∧
    operationOf etxInput (midFrame payloadA.toList) = .readEnd ∧ (midFrame payloadA.toList).len = 27 ∧
    operationOf idleInput State.reset ≠ .readEnd ∧ operationOf idleInput State.reset ≠ .reset := by decide

theorem wit_ParseErrorCounterCounts : operationOf etxInput (midFrame payloadE.toList) = .readEnd ∧
    (midFrame payloadE.toList).len = 27 ∧ extract (midFrame payloadE.toList).buf.frame = .parseError ∧
    operationOf etxInput (midFrame payloadA.toList) = .readEnd ∧ (midFrame payloadA.toList).len = 27 ∧
    extract (midFrame payloadA.toList).buf.frame ≠ .parseError ∧
    operationOf etxInput (midFrame []) = .readEnd ∧ (midFrame []).len ≠ 27 ∧
    operationOf idleInput State.reset ≠ .readEnd ∧ operationOf idleInput State.reset ≠ .reset := by decide

theorem wit_FrameErrorCounterWraps : { midFrame [] with errcntW := 2, frameErrCount := 3 }.len ≠ 27 ∧
    { midFrame [] with errcntW := 2, frameErrCount := 3 }.frameErrCount = 2 ^ 2 - 1 := by decide

theorem wit_RecordAndFrameRegistersHold : operationOf etxInput (midFrame []) ≠ .reset ∧
    (nextOf (edge etxInput (midFrame []))).map (fun t => t.evt) = some .frameError ∧
    (nextOf (edge etxInput (midFrame payloadA.toList))).map (fun t => t.evt) = some .record := by decide

theorem wit_ReportedRecordIsOfForwardedFrame :
    (nextOf (step { midFrame payloadA.toList with inputs := [etxInput] })).map (fun t => t.evt) = some .record ∧
    (nextOf (step { midFrame payloadE.toList with inputs := [etxInput] })).map (fun t => t.evt) = some .parseError := by
  decide

theorem wit_NothingIsFatal :
    (nextOf (step { midFrame [] with inputs := [etxInput] })).map (fun t => decide (t.evt ≠ .none)) = some true := by decide

theorem wit_EventsAreTwoEdgesApart :
    ∃ t, step { midFrame [] with inputs := [etxInput] } = .next t ∧ t.evt ≠ .none := ⟨_, rfl, by decide⟩

/-- Vector V5: the record comes at the 29th edge. -/
theorem wit_ForwardedFramesAre29EdgesApart : State.reset.st = .waitingForStart ∧
    (nextOf (Host.Core.run Sys2Proof.core 29 { State.reset with inputs := frameStream payloadA.toList })).map
      (fun t => t.evt) = some .record := by decide

theorem wit_StateTransitions : State.reset.st = .waitingForStart ∧ (midFrame []).st = .readingPayload := ⟨rfl, rfl⟩

theorem inside_idle : insideFrame idleInput := ⟨rfl, rfl, by decide⟩

theorem inside_byte {b : Byte} (h : b ≠ 0x03) : insideFrame (byteInput b) := ⟨rfl, rfl, fun _ => h⟩

theorem inside_idle_and_bytes {bytes : List Byte} (h : ∀ b ∈ bytes, b ≠ 0x03) :
    ∀ i ∈ idleInput :: bytes.map byteInput, insideFrame i := by
  intro i hi
  rcases List.mem_cons.mp hi with rfl | hi
  · exact inside_idle
  · obtain ⟨b, hb, rfl⟩ := List.mem_map.mp hi
    exact inside_byte (h b hb)

theorem wit_ReadingHasNoTimeout : (midFrame []).st = .readingPayload ∧ (midFrame []).len.toNat ≤ 28 ∧
    (∀ i ∈ idleInput :: payloadA.toList.map byteInput, insideFrame i) ∧
    ¬ insideFrame etxInput ∧ ¬ insideFrame resyncInput ∧ ¬ insideFrame resetInput :=
  ⟨rfl, by decide, inside_idle_and_bytes (by decide), fun h => h.2.2 rfl rfl,
    fun h => absurd h.2.1 (by decide), fun h => absurd h.1 (by decide)⟩

theorem wit_ControlInvariantKept : (midFrame [0x31]).ControlInv := ⟨by decide, fun h => by cases h⟩

theorem wit_StepKeepsInvariant : (midFrame [0x31]).Inv :=
  ⟨wit_ControlInvariantKept, by decide, by decide, by decide, by decide, by decide⟩

theorem wit_StepKeepsInvariant_step :
    ∃ t, step { midFrame [0x31] with inputs := [etxInput] } = .next t := ⟨_, rfl⟩

theorem wit_ExtractedFields : ∃ r, extract payloadC = .ok r := ⟨_, test_extract_largest⟩

theorem wit_RecordRanges : ∃ r, extract payloadC = .ok r ∧ r.amount = 9999999999999 := ⟨_, test_extract_largest, rfl⟩

theorem wit_UnusedPositionsIgnored : asciiOk payloadA = true ∧ asciiOk payloadJ = true ∧ payloadA ≠ payloadJ ∧
    (∀ i : Fin 27, i ∉ ([0, 1, 3, 4, 6, 20, 21, 22] : List (Fin 27)) → payloadA[i] = payloadJ[i]) := by decide

/-- The fillers of PJ: control bytes. -/
def fillersJ : Fillers :=
  { f0 := 0x00, f1 := 0x30, f3 := 0x30, f4 := 0x30, f6 := 0x02, f20 := 0x7F, f21 := 0x30, f22 := 0x30 }

/-- Both ends of both ranges, and the flags at the ends of ASCII. -/
theorem wit_PayloadRoundTrip : (∀ b ∈ (0x00 : Byte) :: 0x7F :: fillersJ.bytes, isAscii b = true ∧ b ≠ 0x03) ∧
    0 ≤ 10 ^ 13 - 1 ∧ 9999999999999 ≤ 10 ^ 13 - 1 ∧ 0 ≤ 9999 ∧ 9999 ≤ 9999 ∧
    State.reset.st = .waitingForStart ∧ State.reset.buf.wf := by decide

theorem wit_FrameStreamDecodes : State.reset.st = .waitingForStart ∧ State.reset.buf.wf ∧
    (∀ i ∈ ([] : List Input), insideFrame i) ∧
    (∀ i ∈ idleInput :: payloadA.toList.map byteInput, insideFrame i) ∧
    frameOfList (validBytes (idleInput :: payloadA.toList.map byteInput)) = some payloadA ∧
    frameOfList (validBytes []) = none :=
  ⟨rfl, by decide, by simp, inside_idle_and_bytes (by decide), by decide, by decide⟩

theorem wit_NoFrameStraddlesReset : State.reset.st = .waitingForStart ∧ State.reset.buf.wf ∧
    (nextOf (runOn (stxInput :: payloadA.toList.map byteInput) State.reset)).map
      (fun t => (operationOf etxInput t, t.len)) = some (.readEnd, 27) := by decide

theorem wit_StartMarkerInsideFrameIsData : State.reset.st = .waitingForStart ∧
    (∀ b ∈ ([] : List Byte), b ≠ 0x03) ∧ (∀ b ∈ ([0x31, 0x02] : List Byte), b ≠ 0x03) ∧
    (∀ i : Fin 27, payloadA[i] ≠ 0x03) := by decide

theorem wit_NoStartMarkerNoEvent_noise : State.reset.st = .waitingForStart ∧ State.reset.len = 0 ∧
    (∀ i ∈ [idleInput, etxInput, byteInput 0xFF, { resyncInput with inByte := 0x03 }],
      i.rst = false ∧ (i.inValid = true → i.inByte ≠ 0x02)) := by decide

theorem wit_NoStartMarkerNoEvent_short_frame : State.reset.st = .waitingForStart ∧ State.reset.buf.wf ∧
    ([] : List Byte).length < 27 ∧ (List.replicate 26 (0x30 : Byte)).length < 27 ∧
    (∀ b ∈ List.replicate 26 (0x30 : Byte), b ≠ 0x03) ∧ (∀ i : Fin 27, payloadA[i] ≠ 0x03) := by decide

/-- A decoder in the middle of a frame and the source's decoder there. -/
theorem wit_BlockRefinesSourceDecoder : (midFrame [0x31, 0x32]).buf.wf ∧
    represents (midFrame [0x31, 0x32]) { SourceDecoder.initial with st := .readingPayload, acc := [0x31, 0x32] } :=
  ⟨by decide, rfl, by decide, by decide, rfl, ⟨rfl, rfl, rfl, rfl⟩, rfl, by decide, by decide⟩

/-- Two states whose buffers differ at the indices 1 and 26, with `len` = 1. -/
theorem wit_StaleBytesNeverObserved : (midFrame [0x31]).buf.wf ∧
    agreeLive (midFrame [0x31]) { midFrame [0x31] with buf := ((bufOf [0x31]).write 1 0x99).write 26 0xFF } ∧
    (((bufOf [0x31]).write 1 0x99).write 26 0xFF).wf ∧
    (midFrame [0x31]).buf ≠ ((bufOf [0x31]).write 1 0x99).write 26 0xFF :=
  ⟨by decide, ⟨rfl, by decide⟩, by decide, by decide⟩

end Sys2Proof.Tests
end

namespace Sys2Proof.Machine

/-! The parameter `ERRCNT_W`, and which operation a step runs (00_scope.md R9, R12; 40_frame_decoder.md R80). -/

/-- No operation touches the parameter `ERRCNT_W` (00_scope.md R9). -/
theorem exec_errcntW {i : Instr} {s t : State} (h : exec i s = .next t) : t.errcntW = s.errcntW := by
  cases i with
  | reset => cases h; rfl
  | resync => cases h; rfl
  | idle => cases h; rfl
  | waitStart => cases h; rfl
  | waitNoise b => cases h; rfl
  | readEnd =>
    rcases execReadEnd_cases s with ⟨-, e⟩ | ⟨r, -, -, e⟩ | ⟨-, -, e⟩ <;> cases e.symm.trans h <;> rfl
  | readData b =>
    rcases execReadData_cases b s with ⟨_, -, e⟩ | ⟨-, -, e⟩ <;> cases e.symm.trans h <;> rfl

/-- `Step` of an input answers, and `ERRCNT_W` is what it was. -/
theorem edge_answers_keeping_errcntW (i : Input) (s : State) : ∃ t, edge i s = .next t ∧ t.errcntW = s.errcntW := by
  obtain ⟨t, ht⟩ := exec_answers (decode (operationWord i s.st)) s
  exact ⟨t, ht, exec_errcntW ht⟩

/-- A step with no input lined up is `Step` of the free value of this draw, which it counts (log entry 2). -/
theorem step_nil {s : State} (h : s.inputs = []) : step s = edge (Config.freeInput s.draws) (countDraw s) := by
  unfold step
  rw [sampledInput_nil h, afterSample_nil h]

/-- Settles O22: sampling the inputs keeps `ERRCNT_W`, and so does the operation that follows. -/
theorem stepKeepsParameter : Obligations.StepKeepsParameter := by
  intro s
  obtain ⟨t, ht, hw⟩ := edge_answers_keeping_errcntW (sampledInput s) (afterSample s)
  exact ⟨t, ht, hw.trans (afterSample_errcntW s)⟩

/-- Settles O8: an edge is `exec` of the operation its word decodes to, and taking an input leaves `st`, and so that
word, as it was. -/
theorem stepRunsDecodedOperation : Obligations.StepRunsDecodedOperation := by
  refine ⟨fun s i rest h => ?_, fun s h => ?_⟩
  · rw [step_cons h, edge, withInputs_st]
  · rw [step_nil h, edge, countDraw_st]

end Sys2Proof.Machine

namespace Sys2Proof.Machine

/-! ### Which operation an edge selects, and what it can do to the output registers

The decode table of 30_encoding.md R62 read in terms of the sampled inputs and `st`; then one inversion lemma for all
seven operations, from which the statements about registers and counters follow. -/

section Selection

variable {i : Input} {s : State}

/-- The decode of R62 with the fields of the operation word read back (R61). -/
theorem operationOf_eq (i : Input) (s : State) : operationOf i s =
    if i.rst = true then .reset
    else if i.resync = true then .resync
    else if i.inValid = false then .idle
    else if decide (s.st = .readingPayload) = false then
      if i.inByte = Config.startMarker then .waitStart else .waitNoise i.inByte
    else if i.inByte = Config.endMarker then .readEnd else .readData i.inByte := by
  simp only [operationOf, decode, operationWord_bit11, operationWord_bit10, operationWord_bit9, operationWord_bit8,
    opwByte_operationWord]

theorem operationOf_rst (hr : i.rst = true) : operationOf i s = .reset := by
  simp [operationOf_eq, hr]

theorem operationOf_resync (hr : i.rst = false) (hs : i.resync = true) : operationOf i s = .resync := by
  simp [operationOf_eq, hr, hs]

theorem operationOf_idle (hr : i.rst = false) (hs : i.resync = false) (hv : i.inValid = false) :
    operationOf i s = .idle := by
  simp [operationOf_eq, hr, hs, hv]

theorem operationOf_waiting (hr : i.rst = false) (hs : i.resync = false) (hv : i.inValid = true)
    (hst : s.st = .waitingForStart) :
    operationOf i s = if i.inByte = Config.startMarker then .waitStart else .waitNoise i.inByte := by
  simp [operationOf_eq, hr, hs, hv, hst]

theorem operationOf_reading (hr : i.rst = false) (hs : i.resync = false) (hv : i.inValid = true)
    (hst : s.st = .readingPayload) :
    operationOf i s = if i.inByte = Config.endMarker then .readEnd else .readData i.inByte := by
  simp [operationOf_eq, hr, hs, hv, hst]

/-- A payload byte is only taken in `READING_PAYLOAD` (R62). -/
theorem reading_of_operationOf_readData {b : Byte} (h : operationOf i s = .readData b) : s.st = .readingPayload := by
  rw [operationOf_eq] at h
  split_ifs at h with hr hs hv hst
  simpa using hst

end Selection

/-- The meanings compare `len` as a number, the statements as a word. -/
theorem len_toNat_eq_27_iff (s : State) : s.len.toNat = 27 ↔ s.len = 27 := BitVec.toNat_inj (y := 27#5)

/-- What an operation can do to `evt`, the record registers, `frame_out` and the counters: RESET clears them, READ_END
has its three endings, every other operation writes `evt <- NONE` alone among them (R25 to R29). -/
theorem exec_output_cases {op : Instr} {s t : State} (h : exec op s = .next t) :
    (op = .reset ∧ t = emit .none (enterWaiting (clearOutputs s))) ∨
    (op = .readEnd ∧ s.len ≠ 27 ∧ t = enterWaiting (emit .frameError (countFrameError s))) ∨
    (∃ r, op = .readEnd ∧ s.len = 27 ∧ extract s.buf.frame = .ok r ∧
      t = enterWaiting (emit .record (loadRecord r (forwardFrame s)))) ∨
    (op = .readEnd ∧ s.len = 27 ∧ extract s.buf.frame = .parseError ∧
      t = enterWaiting (emit .parseError (countParseError (forwardFrame s)))) ∨
    (op ≠ .reset ∧ op ≠ .readEnd ∧ t.evt = .none ∧ keepsRecord s t ∧ keepsCounts s t ∧ t.frameOut = s.frameOut) := by
  cases op with
  | reset => cases h; exact .inl ⟨rfl, rfl⟩
  | readEnd =>
    simp only [← len_toNat_eq_27_iff, true_and, ne_eq]
    rcases execReadEnd_cases s with ⟨hl, e⟩ | ⟨r, hl, hx, e⟩ | ⟨hl, hx, e⟩ <;> cases e.symm.trans h
    · exact .inr (.inl ⟨hl, rfl⟩)
    · exact .inr (.inr (.inl ⟨r, hl, hx, rfl⟩))
    · exact .inr (.inr (.inr (.inl ⟨hl, hx, rfl⟩)))
  | readData b =>
    rcases execReadData_cases b s with ⟨_, -, e⟩ | ⟨-, -, e⟩ <;> cases e.symm.trans h <;>
      simp [keepsRecord, keepsCounts]
  | resync | idle | waitStart | waitNoise => cases h; simp [keepsRecord, keepsCounts]

/-! ### READ_END and READ_DATA as equations, one per ending -/

section Endings

variable {s : State}

theorem execReadEnd_of_len_ne (hl : s.len.toNat ≠ 27) :
    execReadEnd s = .next (enterWaiting (emit .frameError (countFrameError s))) :=
  if_neg hl

theorem execReadEnd_of_record {r : Record} (hl : s.len.toNat = 27) (hx : extract s.buf.frame = .ok r) :
    execReadEnd s = .next (enterWaiting (emit .record (loadRecord r (forwardFrame s)))) :=
  (if_pos hl).trans (by rw [hx])

theorem execReadEnd_of_parseError (hl : s.len.toNat = 27) (hx : extract s.buf.frame = .parseError) :
    execReadEnd s = .next (enterWaiting (emit .parseError (countParseError (forwardFrame s)))) :=
  (if_pos hl).trans (by rw [hx])

theorem execReadData_of_lt (b : Byte) (hl : s.len.toNat < 27) :
    execReadData b s = .next (emit .none (appendByte ⟨s.len.toNat, hl⟩ b s)) := by
  rw [execReadData, storeIndex, dif_pos hl]

theorem execReadData_of_ge (b : Byte) (hl : ¬ s.len.toNat < 27) :
    execReadData b s = .next (emit .none (saturateLen s)) := by
  rw [execReadData, storeIndex, dif_neg hl]

end Endings

/-! ### The frame buffer and the length -/

theorem appendByte_len_toNat {s : State} {i : Fin 27} (b : Byte) (h : s.len.toNat < 27) :
    (appendByte i b s).len.toNat = s.len.toNat + 1 := by
  rw [appendByte_len]
  bv_omega

/-- Every operation keeps `buf` in canonical form (log entry 7). -/
theorem exec_keeps_buf_wf {op : Instr} {s t : State} (hwf : s.buf.wf) (h : exec op s = .next t) : t.buf.wf := by
  cases op with
  | readData b =>
    rcases execReadData_cases b s with ⟨hl, -, e⟩ | ⟨-, -, e⟩ <;> cases e.symm.trans h
    · exact Memory.wf_write hwf _ b
    · exact hwf
  | readEnd =>
    rcases execReadEnd_cases s with ⟨-, e⟩ | ⟨r, -, -, e⟩ | ⟨-, -, e⟩ <;> cases e.symm.trans h <;> exact hwf
  | reset | resync | idle | waitStart | waitNoise => cases h; exact hwf

/-- Frames of buffers that read the same are the same. -/
theorem Memory.frame_eq_of_read {m m' : Memory} (h : ∀ i, m.read i = m'.read i) : m.frame = m'.frame := by
  ext k hk
  simp [h]

/-! ### The control invariant (R33) -/

theorem controlInv_of_len_eq_zero {s : State} (hlen : s.len = 0) : s.ControlInv :=
  ⟨by simp [hlen], fun _ => hlen⟩

/-- An operation keeps R33, if it is one that `st` selects: READ_DATA would break (b) in `WAITING_FOR_START`. -/
theorem exec_keeps_controlInv {op : Instr} {s t : State} (hinv : s.ControlInv)
    (hsel : ∀ b, op = .readData b → s.st = .readingPayload) (h : exec op s = .next t) : t.ControlInv := by
  cases op with
  | reset | resync | waitStart => cases h; exact controlInv_of_len_eq_zero rfl
  | idle | waitNoise => cases h; exact ⟨hinv.len_le, hinv.waiting_len⟩
  | readEnd =>
    rcases execReadEnd_cases s with ⟨-, e⟩ | ⟨r, -, -, e⟩ | ⟨-, -, e⟩ <;> cases e.symm.trans h <;>
      exact controlInv_of_len_eq_zero rfl
  | readData b =>
    have hst := hsel b rfl
    rcases execReadData_cases b s with ⟨hl, -, e⟩ | ⟨-, -, e⟩ <;> cases e.symm.trans h
    · refine ⟨?_, fun hw => by simp [hst] at hw⟩
      rw [emit_len, appendByte_len_toNat b hl]
      omega
    · exact ⟨le_refl 28, fun hw => by simp [hst] at hw⟩

theorem edge_keeps_controlInv {i : Input} {s t : State} (hinv : s.ControlInv) (h : edge i s = .next t) : t.ControlInv :=
  exec_keeps_controlInv hinv (fun _ => reading_of_operationOf_readData) h

theorem afterSample_controlInv {s : State} (hinv : s.ControlInv) : (afterSample s).ControlInv :=
  ⟨by simpa using hinv.len_le, by simpa using hinv.waiting_len⟩

/-- Settles O35: `len` is 0 after every operation that writes `st <- 0` or accepts a start marker, and only READ_DATA,
which `READING_PAYLOAD` selects, increments it. -/
theorem controlInvariantKept : Obligations.ControlInvariantKept := by
  refine ⟨controlInv_of_len_eq_zero rfl, fun s => ⟨_, rfl, controlInv_of_len_eq_zero rfl⟩, fun s hinv => ?_⟩
  obtain ⟨t, ht, -⟩ := edge_answers_keeping_errcntW (sampledInput s) (afterSample s)
  exact ⟨t, ht, edge_keeps_controlInv (afterSample_controlInv hinv) ht⟩

/-! ### The whole invariant: the counters' width (R28, R29) and the record's ranges (R119) -/

theorem bumpCount_lt (w n : Nat) : bumpCount w n < 2 ^ w := Nat.mod_lt _ (Nat.two_pow_pos w)

theorem digitVal_le_nine {b : Byte} (h : isDigit b = true) : digitVal b ≤ 9 := by
  simp only [isDigit, decide_eq_true_eq] at h
  simp only [digitVal]
  omega

/-- A digit sum is at most the sum with 9 in every place. -/
theorem dec_le_nines {f : Frame} {lo hi : Nat} (h : ∀ i ∈ payloadRange lo hi, isDigit f[i] = true) :
    dec f lo hi ≤ ((payloadRange lo hi).map fun i => 10 ^ (hi - 1 - i.val) * 9).sum :=
  List.sum_le_sum fun i hi => Nat.mul_le_mul_left _ (digitVal_le_nine (h i hi))

/-- A record that `Extract` returns is read from a frame whose digit fields hold digits (R110, R112). -/
theorem digitsOk_of_extract_ok {f : Frame} {r : Record} (h : extract f = .ok r) :
    r = recordOf f ∧ ∀ i ∈ digitPositions, isDigit f[i] = true := by
  unfold extract at h
  split_ifs at h with ha hd
  exact ⟨(ExtractResult.ok.inj h).symm, List.all_eq_true.mp (Bool.eq_true_of_not_eq_false hd)⟩

/-- R119: the numbers of a record that `Extract` returns are at most 13 and 4 nines. -/
theorem extracted_record_ranges {f : Frame} {r : Record} (h : extract f = .ok r) :
    r.amount.toNat ≤ 9999999999999 ∧ r.pieceCountRaw.toNat ≤ 9999 := by
  obtain ⟨rfl, hd⟩ := digitsOk_of_extract_ok h
  have ha := dec_le_nines (f := f) (lo := Config.amountLo) (hi := Config.amountHi)
    fun i hi => hd i (List.mem_append_left _ hi)
  have hp := dec_le_nines (f := f) (lo := Config.pieceLo) (hi := Config.pieceHi)
    fun i hi => hd i (List.mem_append_right _ hi)
  exact ⟨(Nat.mod_le _ _).trans (ha.trans (by decide)), (Nat.mod_le _ _).trans (hp.trans (by decide))⟩

/-- An operation that `st` selects keeps the whole invariant. -/
theorem exec_keeps_inv {op : Instr} {s t : State} (hinv : s.Inv)
    (hsel : ∀ b, op = .readData b → s.st = .readingPayload) (h : exec op s = .next t) : t.Inv := by
  have hcontrol := exec_keeps_controlInv hinv.control hsel h
  have hwf := exec_keeps_buf_wf hinv.buf_wf h
  have hw := exec_errcntW h
  obtain ⟨-, -, hfc, hpc, hamount, hpiece⟩ := hinv
  rcases exec_output_cases h with ⟨-, rfl⟩ | ⟨-, -, rfl⟩ | ⟨r, -, -, hx, rfl⟩ | ⟨-, -, -, rfl⟩ |
    ⟨-, -, -, ⟨ha, hp, -, -⟩, ⟨hf, hc⟩, -⟩
  · exact ⟨hcontrol, hwf, Nat.two_pow_pos _, Nat.two_pow_pos _, Nat.zero_le _, Nat.zero_le _⟩
  · exact ⟨hcontrol, hwf, bumpCount_lt _ _, hpc, hamount, hpiece⟩
  · obtain ⟨hra, hrp⟩ := extracted_record_ranges hx
    exact ⟨hcontrol, hwf, hfc, hpc, hra, hrp⟩
  · exact ⟨hcontrol, hwf, hfc, bumpCount_lt _ _, hamount, hpiece⟩
  · exact ⟨hcontrol, hwf, by rwa [hf, hw], by rwa [hc, hw], by rwa [ha], by rwa [hp]⟩

theorem afterSample_inv {s : State} (hinv : s.Inv) : (afterSample s).Inv where
  control := afterSample_controlInv hinv.control
  buf_wf := by simpa using hinv.buf_wf
  frame_count := by simpa using hinv.frame_count
  parse_count := by simpa using hinv.parse_count
  amount_range := by simpa using hinv.amount_range
  piece_range := by simpa using hinv.piece_range

/-- Settles O36: sampling the inputs keeps the invariant, and so does the operation they select. -/
theorem stepKeepsInvariant : Obligations.StepKeepsInvariant := by
  intro s t hinv h
  exact exec_keeps_inv (afterSample_inv hinv) (fun _ => reading_of_operationOf_readData) h

/-! ### The source's decoder, operation by operation (R34)

`sourceExec` is `sourceEdge` after decoding. With it the simulation is one commuting square per operation. -/

/-- What an operation does to the source's decoder. -/
def sourceExec (op : Instr) (d : SourceDecoder) : SourceDecoder :=
  match op with
  | .reset => .initial
  | .resync => { d with st := .waitingForStart, acc := [], evt := .none }
  | .idle => { d with evt := .none }
  | .waitStart => { d with st := .readingPayload, acc := [], evt := .none }
  | .waitNoise _ => { d with evt := .none }
  | .readEnd => sourceClose d
  | .readData b => { d with acc := d.acc ++ [b], evt := .none }

/-- The source's decoder selects the operation that the block selects, if both are in the same state. -/
theorem sourceEdge_eq_sourceExec (i : Input) {s : State} {d : SourceDecoder} (hst : s.st = d.st) :
    sourceEdge d i = sourceExec (operationOf i s) d := by
  unfold sourceEdge
  cases hr : i.rst
  case true => rw [operationOf_rst hr]; rfl
  cases hs : i.resync
  case true => rw [operationOf_resync hr hs]; rfl
  cases hv : i.inValid
  case false => rw [operationOf_idle hr hs hv]; rfl
  cases hd : d.st with
  | waitingForStart =>
    rw [operationOf_waiting hr hs hv (hst.trans hd)]
    change (if i.inByte = Config.startMarker then _ else _) = _
    split_ifs <;> simp [sourceExec, hd]
  | readingPayload =>
    rw [operationOf_reading hr hs hv (hst.trans hd)]
    change (if i.inByte = Config.endMarker then _ else _) = _
    split_ifs <;> simp [sourceExec, hd]

/-- Counting modulo 2^ERRCNT_W is counting, taken modulo 2^ERRCNT_W. -/
theorem bumpCount_mod (w n : Nat) : bumpCount w (n % 2 ^ w) = (n + 1) % 2 ^ w := Nat.mod_add_mod _ _ _

section Represents

variable {s : State} {d : SourceDecoder}

theorem represents.length_eq_27_iff (h : represents s d) : d.acc.length = 27 ↔ s.len.toNat = 27 := by
  have := h.len
  omega

/-- With `len` = 27 the bounded buffer holds the whole unbounded one. -/
theorem represents.frameOfList_eq (h : represents s d) (hl : s.len.toNat = 27) :
    frameOfList d.acc = some s.buf.frame := by
  have hacc := h.length_eq_27_iff.mpr hl
  rw [frameOfList, dif_pos hacc]
  congr 1
  ext1 k hk
  have hread := h.buf ⟨k, hk⟩ (by omega)
  rw [List.getElem?_eq_getElem (by omega), Option.some.injEq] at hread
  simpa using hread

theorem represents.frameOfList_eq_none (h : represents s d) (hl : s.len.toNat ≠ 27) : frameOfList d.acc = none :=
  dif_neg fun hacc => hl (h.length_eq_27_iff.mp hacc)

/-- A byte that the block has no room for, or stores at index `len`, is the next byte of the unbounded buffer. -/
theorem represents_readData (b : Byte) (hwf : s.buf.wf) (h : represents s d) {t : State}
    (ht : execReadData b s = .next t) : represents t (sourceExec (.readData b) d) := by
  have hlen := h.len
  rcases execReadData_cases b s with ⟨hl, -, e⟩ | ⟨hl, -, e⟩ <;> cases e.symm.trans ht
  · have hacc : d.acc.length = s.len.toNat := by omega
    refine { h with evt := rfl, len := ?_, buf := fun i hi => ?_ }
    · rw [emit_len, appendByte_len_toNat b hl]
      simp only [sourceExec, List.length_append, List.length_singleton]
      omega
    · simp only [sourceExec, List.length_append, List.length_singleton] at hi ⊢
      rw [emit_buf, appendByte_buf]
      by_cases heq : i = ⟨s.len.toNat, hl⟩
      · subst heq
        rw [Memory.read_write_same hwf]
        simp [← hacc]
      · have hlt : i.val < d.acc.length := by
          have : i.val ≠ s.len.toNat := fun hv => heq (Fin.ext hv)
          omega
        rw [Memory.read_write_other _ _ heq, List.getElem?_append_left hlt]
        exact h.buf i hlt
  · refine { h with evt := rfl, len := ?_, buf := fun i _ => ?_ }
    · simp only [sourceExec, List.length_append, List.length_singleton]
      show 28 = _
      omega
    · have hlt : i.val < d.acc.length := by omega
      simp only [sourceExec, List.getElem?_append_left hlt]
      exact h.buf i hlt

/-- The end marker closes the same frame, with the same result, in both decoders. -/
theorem represents_readEnd (h : represents s d) {t : State} (ht : execReadEnd s = .next t) :
    represents t (sourceClose d) := by
  have closed : ∀ i : Fin 27, i.val < ([] : List Byte).length → ([] : List Byte)[i.val]? = some (s.buf.read i) :=
    fun _ hi => absurd hi (Nat.not_lt_zero _)
  unfold sourceClose
  rcases execReadEnd_cases s with ⟨hl, e⟩ | ⟨r, hl, hx, e⟩ | ⟨hl, hx, e⟩ <;> cases e.symm.trans ht
  · rw [h.frameOfList_eq_none hl]
    refine { h with st := rfl, len := rfl, buf := closed, evt := rfl, frameErrors := ?_ }
    exact (congrArg (bumpCount s.errcntW) h.frameErrors).trans (bumpCount_mod _ _)
  · simp only [h.frameOfList_eq hl, hx]
    exact { h with st := rfl, len := rfl, buf := closed, evt := rfl, last := ⟨rfl, rfl, rfl, rfl⟩, lastFrame := rfl }
  · simp only [h.frameOfList_eq hl, hx]
    refine { h with st := rfl, len := rfl, buf := closed, evt := rfl, lastFrame := rfl, parseErrors := ?_ }
    exact (congrArg (bumpCount s.errcntW) h.parseErrors).trans (bumpCount_mod _ _)

/-- Whatever its buffer holds, a block whose other elements are at their reset values stands for the source's decoder
after a reset (R171). -/
theorem represents_initial (s : State) : represents (emit .none (enterWaiting (clearOutputs s))) .initial where
  st := rfl
  len := rfl
  buf _ hi := absurd hi (Nat.not_lt_zero _)
  evt := rfl
  last := ⟨rfl, rfl, rfl, rfl⟩
  lastFrame := rfl
  frameErrors := (Nat.zero_mod _).symm
  parseErrors := (Nat.zero_mod _).symm

/-- The square of each operation commutes. -/
theorem exec_represents {op : Instr} (hwf : s.buf.wf) (h : represents s d) {t : State} (ht : exec op s = .next t) :
    represents t (sourceExec op d) := by
  cases op with
  | reset => cases ht; exact represents_initial s
  | resync | waitStart =>
    cases ht
    exact { h with st := rfl, len := rfl, buf := fun _ hi => absurd hi (Nat.not_lt_zero _), evt := rfl }
  | idle | waitNoise => cases ht; exact { h with evt := rfl }
  | readEnd => exact represents_readEnd h ht
  | readData b => exact represents_readData b hwf h ht

/-- Every run of the block stands for the run of the source's decoder over the same inputs. -/
theorem runOn_represents (is : List Input) (hwf : s.buf.wf) (h : represents s d) :
    ∃ t, runOn is s = .next t ∧ represents t (is.foldl sourceEdge d) := by
  induction is generalizing s d with
  | nil => exact ⟨_, runOn_nil s, { h with }⟩
  | cons i is ih =>
    obtain ⟨u, hu⟩ := exec_answers (operationOf i s) s
    have hrep : represents u (sourceEdge d i) := sourceEdge_eq_sourceExec i h.st ▸ exec_represents hwf h hu
    rw [runOn_cons is (t := u) hu]
    exact ih (exec_keeps_buf_wf hwf hu) hrep

end Represents

/-- Settles O48, by induction on the inputs, one commuting square per operation. -/
theorem blockRefinesSourceDecoder : Obligations.BlockRefinesSourceDecoder :=
  ⟨represents_initial State.reset, fun is _ _ hwf h => runOn_represents is hwf h⟩

/-! ### Stale bytes of the buffer (R34) -/

/-- The state with another buffer: how two states that differ only in `buf` are written. -/
def withBuf (m : Memory) (s : State) : State := { s with buf := m }

/-- States that agree on live bytes are one state with two buffers. -/
theorem agreeLive.eq_withBuf {s t : State} (h : agreeLive s t) : t = withBuf t.buf s := by
  show withBuf t.buf { t with buf := s.buf } = withBuf t.buf s
  rw [h.same]

/-- The outputs show nothing of the buffer (R31). -/
theorem agreeLive.outputs_eq {s t : State} (h : agreeLive s t) : s.outputs = t.outputs := by
  rw [h.eq_withBuf]
  rfl

/-- Nor does the operation that an input selects depend on it (R61). -/
theorem agreeLive.operationOf_eq {s t : State} (h : agreeLive s t) (i : Input) : operationOf i s = operationOf i t := by
  rw [h.eq_withBuf]
  rfl

theorem forwardFrame_withBuf {m : Memory} {s : State} (h : m.frame = s.buf.frame) :
    forwardFrame (withBuf m s) = withBuf m (forwardFrame s) := by
  simp only [forwardFrame, withBuf, h]

section Agree

variable {m : Memory} {s s' : State}

/-- READ_END reads the buffer only at `len` = 27, when all its bytes are live; and it leaves no live byte. -/
theorem execReadEnd_agreeLive (h : agreeLive s (withBuf m s)) (hs : execReadEnd s = .next s') :
    ∃ t', execReadEnd (withBuf m s) = .next t' ∧ agreeLive s' t' := by
  have hframe (hl : s.len.toNat = 27) : m.frame = s.buf.frame :=
    Memory.frame_eq_of_read fun i => h.live i (by omega)
  refine ⟨withBuf m s', ?_, ?_⟩
  · rcases execReadEnd_cases s with ⟨hl, e⟩ | ⟨r, hl, hx, e⟩ | ⟨hl, hx, e⟩ <;> cases e.symm.trans hs
    · exact execReadEnd_of_len_ne (s := withBuf m s) hl
    · rw [execReadEnd_of_record (s := withBuf m s) hl ((congrArg extract (hframe hl)).trans hx),
        forwardFrame_withBuf (hframe hl)]
      rfl
    · rw [execReadEnd_of_parseError (s := withBuf m s) hl ((congrArg extract (hframe hl)).trans hx),
        forwardFrame_withBuf (hframe hl)]
      rfl
  · refine ⟨rfl, fun i hi => absurd hi ?_⟩
    rcases execReadEnd_cases s with ⟨-, e⟩ | ⟨r, -, -, e⟩ | ⟨-, -, e⟩ <;> cases e.symm.trans hs <;> simp

/-- READ_DATA makes live exactly the byte it stores. -/
theorem execReadData_agreeLive (b : Byte) (hwf : s.buf.wf) (hm : m.wf) (h : agreeLive s (withBuf m s))
    (hs : execReadData b s = .next s') : ∃ t', execReadData b (withBuf m s) = .next t' ∧ agreeLive s' t' := by
  rcases execReadData_cases b s with ⟨hl, -, e⟩ | ⟨hl, -, e⟩ <;> cases e.symm.trans hs
  · refine ⟨_, execReadData_of_lt (s := withBuf m s) b hl, rfl, fun i hi => ?_⟩
    rw [emit_len, appendByte_len_toNat b hl] at hi
    show (m.write ⟨s.len.toNat, hl⟩ b).read i = (s.buf.write ⟨s.len.toNat, hl⟩ b).read i
    by_cases heq : i = ⟨s.len.toNat, hl⟩
    · subst heq
      rw [Memory.read_write_same hwf, Memory.read_write_same hm]
    · have hne : i.val ≠ s.len.toNat := fun hv => heq (Fin.ext hv)
      rw [Memory.read_write_other _ _ heq, Memory.read_write_other _ _ heq]
      exact h.live i (by omega)
  · exact ⟨_, execReadData_of_ge (s := withBuf m s) b hl, rfl, fun i _ => h.live i (by omega)⟩

/-- Every operation takes states that agree on live bytes to such states. -/
theorem exec_agreeLive {op : Instr} {t : State} (hwf : s.buf.wf) (hwf' : t.buf.wf) (h : agreeLive s t)
    (hs : exec op s = .next s') : ∃ t', exec op t = .next t' ∧ agreeLive s' t' := by
  obtain ⟨m, rfl⟩ : ∃ m, t = withBuf m s := ⟨_, h.eq_withBuf⟩
  cases op with
  | reset | resync | waitStart =>
    cases hs
    exact ⟨_, rfl, rfl, fun _ hi => absurd hi (Nat.not_lt_zero _)⟩
  | idle | waitNoise => cases hs; exact ⟨_, rfl, rfl, h.live⟩
  | readEnd => exact execReadEnd_agreeLive h hs
  | readData b => exact execReadData_agreeLive b hwf hwf' h hs

/-- The same over a run. -/
theorem runOn_agreeLive (is : List Input) {t : State} (hwf : s.buf.wf) (hwf' : t.buf.wf) (h : agreeLive s t) :
    ∃ s' t', runOn is s = .next s' ∧ runOn is t = .next t' ∧ agreeLive s' t' := by
  induction is generalizing s t with
  | nil =>
    refine ⟨_, _, runOn_nil s, runOn_nil t, ?_, h.live⟩
    exact congrArg (withInputs []) h.same
  | cons i is ih =>
    obtain ⟨u, hu⟩ := exec_answers (operationOf i s) s
    obtain ⟨v, hv, huv⟩ := exec_agreeLive hwf hwf' h hu
    have hop : operationOf i s = operationOf i t := h.operationOf_eq i
    rw [runOn_cons is (t := u) hu, runOn_cons is (t := v) ((congrArg (exec · t) hop.symm).trans hv)]
    exact ih (exec_keeps_buf_wf hwf hu) (exec_keeps_buf_wf hwf' hv) huv

end Agree

/-- Settles O49: agreement on live bytes is kept by every run, and the outputs show nothing else. -/
theorem staleBytesNeverObserved : Obligations.StaleBytesNeverObserved := by
  intro is s t hwf hwf' h
  obtain ⟨s', t', hs, ht, h'⟩ := runOn_agreeLive is hwf hwf' h
  exact ⟨s', t', hs, ht, h', h'.outputs_eq⟩

/-! ### The output ports (R31) -/

/-- Digit `k` of a number written in base `b`, least significant digit first. -/
theorem ofDigits_div_pow_mod {b : Nat} {L : List Nat} (hL : ∀ x ∈ L, x < b) {k : Nat} (hk : k < L.length) :
    Nat.ofDigits b L / b ^ k % b = L[k] := by
  have hlt : L[k] < b := hL _ (List.getElem_mem hk)
  rw [Nat.ofDigits_div_pow_eq_ofDigits_drop k (by omega) L hL, List.drop_eq_getElem_cons hk, Nat.ofDigits_cons,
    Nat.add_mul_mod_self_left]
  exact Nat.mod_eq_of_lt hlt

/-- The bytes of a frame as the base-256 digits of its port, byte 0 first. -/
def frameDigits (f : Frame) : List Nat := List.ofFn fun i : Fin 27 => f[i].toNat

theorem frameDigits_length (f : Frame) : (frameDigits f).length = 27 := List.length_ofFn

theorem frameDigits_lt (f : Frame) : ∀ x ∈ frameDigits f, x < 256 := by
  intro x hx
  obtain ⟨i, rfl⟩ := (List.mem_ofFn' _ _).mp hx
  exact f[i].isLt

/-- A number in base `b` as the sum of its weighted digits. -/
theorem ofDigits_ofFn (b : Nat) {n : Nat} (g : Fin n → Nat) :
    Nat.ofDigits b (List.ofFn g) = ((List.finRange n).map fun i => b ^ i.val * g i).sum := by
  rw [Nat.ofDigits_eq_sum_mapIdx]
  congr 1
  exact List.ext_getElem (by simp) fun k _ _ => by simp [Nat.mul_comm]

/-- The port's bits are the frame's bytes in base 256: 27 digits fit 216 bits. -/
theorem frameBits_toNat (f : Frame) : (frameBits f).toNat = Nat.ofDigits 256 (frameDigits f) := by
  have hlt := Nat.ofDigits_lt_base_pow_length (by decide) (frameDigits_lt f)
  rw [frameDigits_length] at hlt
  simp only [frameBits, Nat.pow_mul, BitVec.toNat_ofNat]
  rw [frameDigits, ofDigits_ofFn] at hlt ⊢
  exact Nat.mod_eq_of_lt hlt

/-- Byte `i` of the frame is on bits `8i+7` down to `8i` of its port. -/
theorem frameBits_extractLsb' (f : Frame) (i : Fin 27) : (frameBits f).extractLsb' (8 * i.val) 8 = f[i] := by
  apply BitVec.eq_of_toNat_eq
  rw [BitVec.extractLsb'_toNat, frameBits_toNat, Nat.shiftRight_eq_div_pow, Nat.pow_mul]
  exact (ofDigits_div_pow_mod (frameDigits_lt f) (by simp [frameDigits_length])).trans (List.getElem_ofFn _)

/-- Settles O24: the ports but `frame_out` copy the state or compare `evt`; `frame_out` is the frame in base 256. -/
theorem outputPortsShowState : Obligations.OutputPortsShowState := by
  intro s
  refine ⟨rfl, beq_iff_eq, beq_iff_eq, beq_iff_eq, ?_, rfl, rfl, rfl, rfl, frameBits_extractLsb' s.frameOut, rfl, rfl, rfl,
    rfl⟩
  simp [State.outputs]

/-! ### The counters and the output registers at an edge (R26 to R29) -/

/-- Settles O25: of the five things an operation can do to the registers, only a READ_END at another length counts. -/
theorem frameErrorCounterCounts : Obligations.FrameErrorCounterCounts := by
  intro i s
  obtain ⟨t, ht⟩ := exec_answers (operationOf i s) s
  refine ⟨t, ht, ?_⟩
  rcases exec_output_cases ht with ⟨ho, rfl⟩ | ⟨ho, hl, rfl⟩ | ⟨r, ho, hl, -, rfl⟩ | ⟨ho, hl, -, rfl⟩ |
    ⟨-, he, -, -, ⟨hf, -⟩, -⟩
  · simp [ho]
  · exact ⟨fun _ _ => rfl, fun _ h27 => absurd h27 hl, fun hne => absurd ho hne⟩
  · exact ⟨fun _ hne => absurd hl hne, fun _ _ => rfl, fun hne => absurd ho hne⟩
  · exact ⟨fun _ hne => absurd hl hne, fun _ _ => rfl, fun hne => absurd ho hne⟩
  · exact ⟨fun h => absurd h he, fun h => absurd h he, fun _ _ => hf⟩

/-- Settles O26: only a READ_END at `len` = 27 whose frame `Extract` rejects counts. -/
theorem parseErrorCounterCounts : Obligations.ParseErrorCounterCounts := by
  intro i s
  obtain ⟨t, ht⟩ := exec_answers (operationOf i s) s
  refine ⟨t, ht, ?_⟩
  rcases exec_output_cases ht with ⟨ho, rfl⟩ | ⟨ho, hl, rfl⟩ | ⟨r, ho, hl, hx, rfl⟩ | ⟨ho, hl, hx, rfl⟩ |
    ⟨-, he, -, -, ⟨-, hp⟩, -⟩
  · simp [ho]
  · exact ⟨fun _ h27 => absurd h27 hl, fun _ _ _ => rfl, fun _ _ => rfl, fun hne => absurd ho hne⟩
  · simp [ho, hl, hx]
  · simp [ho, hl, hx, bumpCount]
  · simp [he, hp]

/-- Settles O28: the record registers are written with RECORD, `frame_out` with RECORD and PARSE_ERROR, from `buf`. -/
theorem recordAndFrameRegistersHold : Obligations.RecordAndFrameRegistersHold := by
  intro i s
  obtain ⟨t, ht⟩ := exec_answers (operationOf i s) s
  refine ⟨t, ht, ?_⟩
  rcases exec_output_cases ht with ⟨ho, rfl⟩ | ⟨-, -, rfl⟩ | ⟨r, -, -, -, rfl⟩ | ⟨-, -, -, rfl⟩ |
    ⟨-, -, hnone, hrec, -, hframe⟩
  · simp [ho]
  · simp [keepsRecord]
  · simp
  · simp [keepsRecord]
  · simp [hnone, hrec, hframe]

/-- Settles O15: RESET writes every element that a port shows. -/
theorem resetOutputsAreResetState : Obligations.ResetOutputsAreResetState :=
  fun s => ⟨emit .none (enterWaiting (clearOutputs s)), rfl, rfl⟩

end Sys2Proof.Machine

namespace Sys2Proof.Machine

/-! Runs extended at their end (20_memory.md R50), and the record a step reports (R47). -/

/-- The run over one input is `Step` of it, with nothing lined up after it. -/
theorem runOn_singleton (i : Input) (s : State) : runOn [i] s = edge i (withInputs [] s) := by
  obtain ⟨u, hu⟩ := exec_answers (operationOf i s) s
  calc runOn [i] s = runOn [] u := runOn_cons [] hu
    _ = edge i (withInputs [] s) := (exec_with_inputs [] hu).symm

/-- Settles O10, by induction on the inputs, each taken off the front of both runs. -/
theorem runIsSequential : Obligations.RunIsSequential := by
  intro is i s t h
  induction is generalizing s with
  | nil =>
    cases (runOn_nil s).symm.trans h
    exact runOn_singleton i s
  | cons j is ih =>
    obtain ⟨u, hu⟩ := exec_answers (operationOf j s) s
    have hrest : runOn is u = .next t := (runOn_cons is hu).symm.trans h
    exact (runOn_cons (is ++ [i]) hu).trans (ih u hrest)

/-- Whichever operation reports RECORD or PARSE_ERROR, it has put the frame that `Extract` answered for in `frame_out`
(R47, R84). -/
theorem exec_reports_forwarded_frame {op : Instr} {s t : State} (h : exec op s = .next t) :
    (t.evt = .record → ∃ r, extract t.frameOut = .ok r ∧ holdsRecord t r) ∧
    (t.evt = .parseError → extract t.frameOut = .parseError) := by
  rcases exec_output_cases h with ⟨-, rfl⟩ | ⟨-, -, rfl⟩ | ⟨r, -, -, hx, rfl⟩ | ⟨-, -, hx, rfl⟩ | ⟨-, -, hnone, -⟩
  · simp
  · simp
  · exact ⟨fun _ => ⟨r, hx, rfl, rfl, rfl, rfl⟩, by simp⟩
  · exact ⟨by simp, fun _ => hx⟩
  · simp [hnone]

/-- Settles O29: a step runs an operation on the state whose input has been sampled. -/
theorem reportedRecordIsOfForwardedFrame : Obligations.ReportedRecordIsOfForwardedFrame := by
  intro s
  obtain ⟨t, ht⟩ := exec_answers (operationOf (sampledInput s) (afterSample s)) (afterSample s)
  exact ⟨t, ht, exec_reports_forwarded_frame ht⟩

end Sys2Proof.Machine

namespace Sys2Proof.Machine

/-! ### The decode table in numbers (30_encoding.md R62)

The words of an operation are an interval of 0..4095, without the one word that a row of higher priority takes from it:
RESET has 2048..4095, RESYNC 1024..2047, IDLE 0..511, WAIT_START 514, WAIT_NOISE the rest of 512..767, READ_END 771 and
READ_DATA the rest of 768..1023. Decoder, encoder and masks are read as numbers once; the intervals then follow by
arithmetic. -/

/-- A bit of an operation word as arithmetic. -/
theorem getLsbD_eq_decide_div (w : Opw) (k : Nat) : w.getLsbD k = decide (w.toNat / 2 ^ k % 2 = 1) := by
  rw [← BitVec.testBit_toNat, Nat.testBit_eq_decide_div_mod_eq]

theorem opwByte_toNat (w : Opw) : (opwByte w).toNat = w.toNat % 256 := by
  simp [opwByte]

theorem opwByte_eq_iff (w : Opw) (b : Byte) : opwByte w = b ↔ w.toNat % 256 = b.toNat := by
  rw [← opwByte_toNat, BitVec.toNat_inj]

/-- A mask of the bits from `k` up clears the bits below. -/
theorem and_toNat_of_topMask (w : Opw) {m : Opw} (k : Nat) (hm : m = BitVec.allOnes 12 <<< k) :
    (w &&& m).toNat = w.toNat / 2 ^ k * 2 ^ k := by
  have hle : w.toNat / 2 ^ k * 2 ^ k ≤ w.toNat := Nat.div_mul_le_self _ _
  rw [hm, ← BitVec.shiftLeft_ushiftRight, BitVec.toNat_shiftLeft, BitVec.toNat_ushiftRight, Nat.shiftRight_eq_div_pow,
    Nat.shiftLeft_eq, Nat.mod_eq_of_lt (by omega)]

/-- Every mask of the table and of `careMask` is of that kind. -/
theorem and_mask_toNat (w : Opw) :
    (w &&& 0x800).toNat = w.toNat / 2048 * 2048 ∧
    (w &&& 0xC00).toNat = w.toNat / 1024 * 1024 ∧
    (w &&& 0xE00).toNat = w.toNat / 512 * 512 ∧
    (w &&& 0xF00).toNat = w.toNat / 256 * 256 ∧
    (w &&& 0xFFF).toNat = w.toNat :=
  ⟨and_toNat_of_topMask w 11 rfl, and_toNat_of_topMask w 10 rfl, and_toNat_of_topMask w 9 rfl,
    and_toNat_of_topMask w 8 rfl, congrArg BitVec.toNat BitVec.and_allOnes⟩

/-- The decoder's tests, in their order, as bounds on the word. -/
theorem decode_eq_of_toNat (w : Opw) : decode w =
    if 2048 ≤ w.toNat then .reset
    else if 1024 ≤ w.toNat then .resync
    else if w.toNat < 512 then .idle
    else if w.toNat < 768 then
      if w.toNat = 514 then .waitStart else .waitNoise (opwByte w)
    else
      if w.toNat = 771 then .readEnd else .readData (opwByte w) := by
  have hstart : opwByte w = Config.startMarker ↔ w.toNat % 256 = 2 := opwByte_eq_iff w _
  have hend : opwByte w = Config.endMarker ↔ w.toNat % 256 = 3 := opwByte_eq_iff w _
  simp only [decode, getLsbD_eq_decide_div, hstart, hend, decide_eq_true_eq, decide_eq_false_iff_not]
  exact if_ctx_congr (by omega) (fun _ => rfl) fun _ =>
    if_ctx_congr (by omega) (fun _ => rfl) fun _ =>
    if_ctx_congr (by omega) (fun _ => rfl) fun _ =>
    if_ctx_congr (by omega)
      (fun _ => if_ctx_congr (by omega) (fun _ => rfl) fun _ => rfl)
      fun _ => if_ctx_congr (by omega) (fun _ => rfl) fun _ => rfl

/-- The interval that a word lies in gives the priority of its operation. -/
theorem priorityOf_decode_cases (w : Opw) :
    (2048 ≤ w.toNat ∧ priorityOf (decode w) = 1) ∨
    (1024 ≤ w.toNat ∧ w.toNat < 2048 ∧ priorityOf (decode w) = 2) ∨
    (w.toNat < 512 ∧ priorityOf (decode w) = 3) ∨
    (w.toNat = 514 ∧ priorityOf (decode w) = 4) ∨
    (512 ≤ w.toNat ∧ w.toNat < 768 ∧ w.toNat ≠ 514 ∧ priorityOf (decode w) = 5) ∨
    (w.toNat = 771 ∧ priorityOf (decode w) = 6) ∨
    (768 ≤ w.toNat ∧ w.toNat < 1024 ∧ w.toNat ≠ 771 ∧ priorityOf (decode w) = 7) := by
  rw [decode_eq_of_toNat]
  split_ifs <;> simp only [priorityOf, and_true] <;> omega

theorem rowSelects_iff (r : OpcodeRow) (w : Opw) :
    rowSelects r w = true ↔ w &&& r.mask = r.matchBits ∧ w ∉ r.excludes := by
  simp [rowSelects]

/-- A row of the table selects the words whose operation stands in it, and no others (R62). -/
theorem rowSelects_iff_priority (w : Opw) :
    ∀ r ∈ opcodeTable, (rowSelects r w = true ↔ r.priority = priorityOf (decode w)) := by
  have hw := w.isLt
  have hcases := priorityOf_decode_cases w
  obtain ⟨h800, hC00, hE00, hF00, hFFF⟩ := and_mask_toNat w
  simp only [opcodeTable, List.forall_mem_cons, rowSelects_iff, List.mem_singleton, forall_eq, List.not_mem_nil,
    not_false_eq_true, and_true, ← BitVec.toNat_inj, h800, hC00, hE00, hF00, hFFF, BitVec.reduceToNat]
  omega

theorem exists_row_of_priority (i : Instr) : ∃ r ∈ opcodeTable, r.priority = priorityOf i := by
  cases i <;> simp [opcodeTable, priorityOf]

theorem opcodeTable_priority_injective :
    ∀ r ∈ opcodeTable, ∀ r' ∈ opcodeTable, r.priority = r'.priority → r = r' := by
  decide

/-! ### The byte an operation carries (R62, R63) -/

theorem decode_eq_waitNoise {w : Opw} {b : Byte} (h : decode w = .waitNoise b) :
    b = opwByte w ∧ b ≠ Config.startMarker := by
  unfold decode at h
  split_ifs at h with _ _ _ _ hb
  cases h
  exact ⟨rfl, hb⟩

theorem decode_eq_readData {w : Opw} {b : Byte} (h : decode w = .readData b) :
    b = opwByte w ∧ b ≠ Config.endMarker := by
  unfold decode at h
  split_ifs at h with _ _ _ _ _ hb
  cases h
  exact ⟨rfl, hb⟩

theorem encode_waitNoise_toNat (b : Byte) : (encode (.waitNoise b)).toNat = 512 + b.toNat := by
  rw [encode, BitVec.toNat_append, ← Nat.shiftLeft_add_eq_or_of_lt b.isLt]
  rfl

theorem encode_readData_toNat (b : Byte) : (encode (.readData b)).toNat = 768 + b.toNat := by
  rw [encode, BitVec.toNat_append, ← Nat.shiftLeft_add_eq_or_of_lt b.isLt]
  rfl

theorem encode_waitNoise_eq_operationWord (b : Byte) :
    encode (.waitNoise b) = operationWord (byteInput b) .waitingForStart := by
  simp [encode, operationWord, byteInput, stCode]

theorem encode_readData_eq_operationWord (b : Byte) :
    encode (.readData b) = operationWord (byteInput b) .readingPayload := by
  simp [encode, operationWord, byteInput, stCode]

/-! ### Decoding and encoding -/

/-- Settles O4: the two operations with a byte are encoded as the word of that byte's cycle in the state that selects
them; the other five have one word each. -/
theorem decodeOfEncode : Obligations.DecodeOfEncode := by
  intro i hwf
  cases i with
  | waitNoise b =>
    rw [encode_waitNoise_eq_operationWord]
    exact (operationOf_waiting (i := byteInput b) (s := State.reset) rfl rfl rfl rfl).trans (if_neg hwf)
  | readData b =>
    rw [encode_readData_eq_operationWord]
    exact (operationOf_reading (i := byteInput b) (s := { State.reset with st := .readingPayload }) rfl rfl rfl
      rfl).trans (if_neg hwf)
  | reset | resync | idle | waitStart | readEnd => decide

/-- Settles O1: some row has the priority of the decoded operation, and whichever row is found first has it. -/
theorem decodeSelectsFirstTableRow : Obligations.DecodeSelectsFirstTableRow := by
  refine ⟨fun w => ?_, fun w b h => ?_⟩
  · obtain ⟨r, hr, hp⟩ := exists_row_of_priority (decode w)
    cases hfind : opcodeTable.find? fun r => rowSelects r w with
    | none => exact absurd ((rowSelects_iff_priority w r hr).mpr hp) (List.find?_eq_none.mp hfind r hr)
    | some r' =>
      have hsel : rowSelects r' w = true := List.find?_some (p := (rowSelects · w)) hfind
      exact congrArg some ((rowSelects_iff_priority w r' (List.mem_of_find?_eq_some hfind)).mp hsel)
  · exact h.elim (fun h => (decode_eq_waitNoise h).1) fun h => (decode_eq_readData h).1

/-- Settles O6: the decoder gives a byte to WAIT_NOISE and READ_DATA only after comparing it with the marker. -/
theorem decodedIsWellFormed : Obligations.DecodedIsWellFormed := by
  intro w
  cases h : decode w with
  | waitNoise b => exact (decode_eq_waitNoise h).2
  | readData b => exact (decode_eq_readData h).2
  | reset | resync | idle | waitStart | readEnd => trivial

/-- Settles O5: operation by operation, both sides are the same number. -/
theorem encodeOfDecode : Obligations.EncodeOfDecode := by
  intro w
  have hw := w.isLt
  obtain ⟨h800, hC00, hE00, -, hFFF⟩ := and_mask_toNat w
  apply BitVec.eq_of_toNat_eq
  rw [decode_eq_of_toNat]
  split_ifs
  · rw [careMask, h800]
    change 0x800 = _
    omega
  · rw [careMask, hC00]
    change 0x400 = _
    omega
  · rw [careMask, hE00]
    change 0x000 = _
    omega
  · rw [careMask, hFFF]
    change 0x202 = _
    omega
  · rw [careMask, hFFF, encode_waitNoise_toNat, opwByte_toNat]
    omega
  · rw [careMask, hFFF]
    change 0x303 = _
    omega
  · rw [careMask, hFFF, encode_readData_toNat, opwByte_toNat]
    omega

/-! ### The words of each operation, counted (R64) -/

/-- The words, as numbers, whose operation has the priority `p` in R62. -/
def wordsOfPriority (p : Nat) : Finset Nat :=
  match p with
  | 1 => .Ico 2048 4096
  | 2 => .Ico 1024 2048
  | 3 => .Ico 0 512
  | 4 => {514}
  | 5 => (Finset.Ico 512 768).erase 514
  | 6 => {771}
  | 7 => (Finset.Ico 768 1024).erase 771
  | 0 | _ + 8 => ∅

theorem mem_wordsOfPriority {n : Nat} (hn : n < 4096) (p : Nat) :
    n ∈ wordsOfPriority p ↔ priorityOf (decode (BitVec.ofNat 12 n)) = p := by
  have hcases := priorityOf_decode_cases (BitVec.ofNat 12 n)
  rw [BitVec.toNat_ofNat, Nat.mod_eq_of_lt hn] at hcases
  unfold wordsOfPriority
  split <;> simp only [Finset.mem_Ico, Finset.mem_erase, Finset.mem_singleton, Finset.notMem_empty, false_iff] <;> omega

theorem lt_of_mem_wordsOfPriority {n p : Nat} (h : n ∈ wordsOfPriority p) : n < 4096 := by
  unfold wordsOfPriority at h
  split at h <;> simp only [Finset.mem_Ico, Finset.mem_erase, Finset.mem_singleton, Finset.notMem_empty] at h <;> omega

theorem countP_priority_eq_card (p : Nat) :
    ((List.range 4096).countP fun n => priorityOf (decode (BitVec.ofNat 12 n)) == p) = (wordsOfPriority p).card := by
  have hset : wordsOfPriority p =
      {n ∈ Finset.range 4096 | (priorityOf (decode (BitVec.ofNat 12 n)) == p) = true} := by
    ext n
    rw [Finset.mem_filter, Finset.mem_range, beq_iff_eq]
    exact ⟨fun h => ⟨lt_of_mem_wordsOfPriority h, (mem_wordsOfPriority (lt_of_mem_wordsOfPriority h) p).mp h⟩,
      fun ⟨hn, h⟩ => (mem_wordsOfPriority hn p).mpr h⟩
  rw [hset, ← Nat.count_eq_card_filter_range]
  simp only [Nat.count, Bool.decide_eq_true]

/-- Settles O2: rows have different priorities, so one row selects a word; the counts are the sizes of the intervals. -/
theorem decodeClassCounts : Obligations.DecodeClassCounts := by
  refine ⟨fun w => ?_, ?_⟩
  · obtain ⟨r, hr, hp⟩ := exists_row_of_priority (decode w)
    refine ⟨r, hr, hp, fun r' hr' => ?_⟩
    rw [rowSelects_iff_priority w r' hr', ← hp]
    exact ⟨opcodeTable_priority_injective r' hr' r hr, congrArg _⟩
  · simp [countP_priority_eq_card, wordsOfPriority, Finset.card_erase_of_mem]

/-! ### The word formed from a word's own fields (R61), and the fields it does not read (R66) -/

/-- Two words with the same byte and the same four upper bits are the same. -/
theorem opw_eq_of_fields {v w : Opw} (hbyte : opwByte v = opwByte w) (h8 : v.getLsbD 8 = w.getLsbD 8)
    (h9 : v.getLsbD 9 = w.getLsbD 9) (h10 : v.getLsbD 10 = w.getLsbD 10) (h11 : v.getLsbD 11 = w.getLsbD 11) :
    v = w := by
  rw [opwByte_eq_iff, opwByte_toNat] at hbyte
  simp only [getLsbD_eq_decide_div, decide_eq_decide] at h8 h9 h10 h11
  bv_omega

theorem operationWord_inputOfWord (w : Opw) : operationWord (inputOfWord w) (stOfBit (w.getLsbD 8)) = w := by
  refine opw_eq_of_fields (opwByte_operationWord _ _) ?_ (operationWord_bit9 _ _) (operationWord_bit10 _ _)
    (operationWord_bit11 _ _)
  rw [operationWord_bit8]
  cases w.getLsbD 8 <;> rfl

/-- The step after `withFetchWord` performs the word's operation, with the lined up inputs left as they were. -/
theorem step_withFetchWord (s : State) (nbits w : Nat) : step (s.withFetchWord nbits w) =
    exec (decode (BitVec.ofNat 12 w)) { s with st := stOfBit ((BitVec.ofNat 12 w).getLsbD 8) } := by
  rw [step_cons (s := s.withFetchWord nbits w) rfl]
  exact congrArg (fun v => exec (decode v) _) (operationWord_inputOfWord _)

theorem decodeTableWord_of_lt (nbits : Nat) {w : Nat} (hw : w < 4096) :
    decodeTableWord nbits w = some (decode (BitVec.ofNat 12 w)) := by
  rw [decodeTableWord, decodeNumber, if_pos hw]

/-- Settles O9: splitting a word and forming it again gives it back. -/
theorem fetchedWordRuns : Obligations.FetchedWordRuns := by
  refine ⟨operationWord_inputOfWord, fun s nbits w hw => ⟨_, decodeTableWord_of_lt nbits hw, ?_⟩⟩
  rw [step_withFetchWord, BitVec.getLsbD_ofNat]
  rfl

/-- Inputs that differ only where the selected row has don't-cares select the same operation. -/
theorem operationOf_congr_of_dontCare {i j : Input} (s : State) (hrst : i.rst = j.rst) (hresync : i.resync = j.resync)
    (h : i.rst = true ∨ i.resync = true ∨ (i.inValid = false ∧ j.inValid = false)) :
    operationOf i s = operationOf j s := by
  rw [operationOf_eq, operationOf_eq, ← hrst, ← hresync]
  rcases h with hr | hs | ⟨hi, hj⟩
  · rw [if_pos hr, if_pos hr]
  · rw [if_pos hs, if_pos hs]
  · rw [if_pos hi, if_pos hj]

/-- Settles O11: an edge depends on its input only through the operation selected. -/
theorem dontCareInputsIgnored : Obligations.DontCareInputsIgnored :=
  fun _ _ s hrst hresync h => congrArg (exec · s) (operationOf_congr_of_dontCare s hrst hresync h)

end Sys2Proof.Machine

namespace Sys2Proof.Machine

/-! ### What the operations of the frame decoder keep, and the state each leaves (40_frame_decoder.md R80 to R88) -/

/-- The output registers, counters and `ERRCNT_W` of `t` are those of `s`; `evt` is not among them. -/
structure keepsRegisters (s t : State) : Prop where
  record : keepsRecord s t
  counts : keepsCounts s t
  frameOut : t.frameOut = s.frameOut
  errcntW : t.errcntW = s.errcntW

theorem keepsRecord.trans {s u t : State} : keepsRecord s u → keepsRecord u t → keepsRecord s t
  | ⟨ha, hp, hm, hr⟩, ⟨ha', hp', hm', hr'⟩ => ⟨ha'.trans ha, hp'.trans hp, hm'.trans hm, hr'.trans hr⟩

theorem holdsRecord.same {s t : State} {r : Record} : holdsRecord s r → holdsRecord t r → keepsRecord s t
  | ⟨ha, hp, hm, hr⟩, ⟨ha', hp', hm', hr'⟩ =>
    ⟨ha'.trans ha.symm, hp'.trans hp.symm, hm'.trans hm.symm, hr'.trans hr.symm⟩

theorem keepsCounts.trans {s u t : State} : keepsCounts s u → keepsCounts u t → keepsCounts s t
  | ⟨hf, hp⟩, ⟨hf', hp'⟩ => ⟨hf'.trans hf, hp'.trans hp⟩

theorem keepsRegisters.refl (s : State) : keepsRegisters s s :=
  ⟨⟨rfl, rfl, rfl, rfl⟩, ⟨rfl, rfl⟩, rfl, rfl⟩

theorem withInputs_keepsRegisters (is : List Input) (s : State) : keepsRegisters s (withInputs is s) :=
  { keepsRegisters.refl s with }

theorem keepsRegisters.trans {s u t : State} (h : keepsRegisters s u) (h' : keepsRegisters u t) : keepsRegisters s t :=
  ⟨h.record.trans h'.record, h.counts.trans h'.counts, h'.frameOut.trans h.frameOut, h'.errcntW.trans h.errcntW⟩

/-- Every operation but RESET and READ_END writes, besides the decoder's own `st`, `len` and `buf`, only
`evt <- NONE`. -/
theorem exec_keepsRegisters {op : Instr} {s t : State} (hreset : op ≠ .reset) (hend : op ≠ .readEnd)
    (h : exec op s = .next t) : t.evt = .none ∧ keepsRegisters s t := by
  have hw := exec_errcntW h
  rcases exec_output_cases h with ⟨ho, -⟩ | ⟨ho, -⟩ | ⟨r, ho, -⟩ | ⟨ho, -⟩ | ⟨-, -, hnone, hrec, hcounts, hframe⟩
  · exact absurd ho hreset
  · exact absurd ho hend
  · exact absurd ho hend
  · exact absurd ho hend
  · exact ⟨hnone, hrec, hcounts, hframe, hw⟩

/-- The state after a start marker (R82). -/
def afterStart (s : State) : State := emit .none (enterReading s)

theorem afterStart_keepsRegisters (s : State) : keepsRegisters s (afterStart s) :=
  (exec_keepsRegisters (op := .waitStart) (by simp) (by simp) rfl).2

theorem eq_waitingForStart_of_ne {d : DecoderState} (h : d ≠ .readingPayload) : d = .waitingForStart := by
  cases d with
  | waitingForStart => rfl
  | readingPayload => exact absurd rfl h

/-- The state of the decoder that an operation leaves (R88). -/
def stAfter (op : Instr) (d : DecoderState) : DecoderState :=
  match op with
  | .reset | .resync | .readEnd => .waitingForStart
  | .waitStart => .readingPayload
  | .idle | .waitNoise _ | .readData _ => d

theorem exec_st {op : Instr} {s t : State} (h : exec op s = .next t) : t.st = stAfter op s.st := by
  cases op with
  | readEnd =>
    rcases execReadEnd_cases s with ⟨-, e⟩ | ⟨r, -, -, e⟩ | ⟨-, -, e⟩ <;> cases e.symm.trans h <;> rfl
  | readData b =>
    rcases execReadData_cases b s with ⟨_, -, e⟩ | ⟨-, -, e⟩ <;> cases e.symm.trans h <;> rfl
  | reset | resync | idle | waitStart | waitNoise => cases h; rfl

/-! ### Which operations each state of the decoder selects -/

section Selection

variable {i : Input} {s : State}

/-- The edge of an input performs the operation it selects. -/
theorem edge_of_operationOf {op : Instr} (h : operationOf i s = op) : edge i s = exec op s :=
  congrArg (exec · s) h

theorem exec_ite (p : Prop) [Decidable p] (a b : Instr) (s : State) :
    exec (if p then a else b) s = if p then exec a s else exec b s :=
  apply_ite (exec · s) p a b

theorem reading_of_operationOf_readEnd (h : operationOf i s = .readEnd) : s.st = .readingPayload := by
  rw [operationOf_eq] at h
  split_ifs at h with hr hs hv hst
  simpa using hst

theorem waiting_of_operationOf_waitStart (h : operationOf i s = .waitStart) : s.st = .waitingForStart := by
  rw [operationOf_eq] at h
  split_ifs at h with hr hs hv hst
  exact eq_waitingForStart_of_ne (of_decide_eq_false hst)

theorem waiting_of_operationOf_waitNoise {b : Byte} (h : operationOf i s = .waitNoise b) :
    s.st = .waitingForStart := by
  rw [operationOf_eq] at h
  split_ifs at h with hr hs hv hst
  exact eq_waitingForStart_of_ne (of_decide_eq_false hst)

/-- In `READING_PAYLOAD` the cycles inside a frame are the IDLE and the READ_DATA edges. -/
theorem insideFrame_iff_of_reading (hst : s.st = .readingPayload) :
    insideFrame i ↔ (∃ b, operationOf i s = .readData b) ∨ operationOf i s = .idle := by
  cases hr : i.rst
  case true => simp [insideFrame, hr, operationOf_rst hr]
  cases hs : i.resync
  case true => simp [insideFrame, hs, operationOf_resync hr hs]
  cases hv : i.inValid
  case false => simp [insideFrame, hr, hs, hv, operationOf_idle hr hs hv]
  rw [operationOf_reading hr hs hv hst]
  by_cases hb : i.inByte = Config.endMarker
  · simp [insideFrame, hv, hb, Config.endMarker]
  · rw [if_neg hb]
    exact iff_of_true ⟨hr, hs, fun _ => hb⟩ (.inl ⟨_, rfl⟩)

/-- A cycle inside a frame either presents no byte or has its byte read. -/
theorem operationOf_of_insideFrame (hst : s.st = .readingPayload) (hi : insideFrame i) :
    (operationOf i s = .idle ∧ validBytes [i] = []) ∨
    (operationOf i s = .readData i.inByte ∧ validBytes [i] = [i.inByte]) := by
  obtain ⟨hr, hs, hbyte⟩ := hi
  cases hv : i.inValid with
  | false => exact .inl ⟨operationOf_idle hr hs hv, by simp [validBytes, hv]⟩
  | true =>
    exact .inr ⟨(operationOf_reading hr hs hv hst).trans (if_neg (hbyte hv)), by simp [validBytes, hv]⟩

theorem operationOf_stxInput (hst : s.st = .waitingForStart) : operationOf stxInput s = .waitStart :=
  operationOf_waiting rfl rfl rfl hst

theorem operationOf_etxInput (hst : s.st = .readingPayload) : operationOf etxInput s = .readEnd :=
  operationOf_reading rfl rfl rfl hst

end Selection

/-- Settles O3: the word's decode, its tests read as tests of the inputs and of `st`. -/
theorem edgeSelectsOperation : Obligations.EdgeSelectsOperation := by
  intro i s
  cases hr : i.rst
  case true => exact edge_of_operationOf (operationOf_rst hr)
  cases hs : i.resync
  case true => exact edge_of_operationOf (operationOf_resync hr hs)
  cases hv : i.inValid
  case false => exact edge_of_operationOf (operationOf_idle hr hs hv)
  cases hst : s.st with
  | waitingForStart =>
    rw [edge_of_operationOf (operationOf_waiting hr hs hv hst), exec_ite]
    simp only [true_and, if_true]
    rfl
  | readingPayload =>
    rw [edge_of_operationOf (operationOf_reading hr hs hv hst), exec_ite]
    simp only [reduceCtorEq, false_and, if_false]
    rfl

/-- Settles O16: RESYNC writes `st`, `len` and `evt` alone, and `rst` = 0 with `resync` = 1 selects it. -/
theorem resyncReturnsToWaiting : Obligations.ResyncReturnsToWaiting := by
  intro s
  have hkeep : keepsRegisters s (emit .none (enterWaiting s)) :=
    (exec_keepsRegisters (op := .resync) (by simp) (by simp) rfl).2
  refine ⟨_, rfl, rfl, rfl, rfl, fun _ => rfl, hkeep.record, hkeep.counts, hkeep.frameOut, fun hst hlen => ?_,
    fun i hr hs => edge_of_operationOf (operationOf_resync hr hs)⟩
  rw [emit, enterWaiting, ← hst, ← hlen]

/-- Settles O17: the next state is `emit .none s`, and a cycle without `rst`, `resync` and `in_valid` is IDLE. -/
theorem idleWritesEventOnly : Obligations.IdleWritesEventOnly :=
  fun _ => ⟨_, rfl, rfl, rfl, rfl, fun _ => rfl, fun _ hr hs hv => edge_of_operationOf (operationOf_idle hr hs hv)⟩

/-- Settles O18: the next state is `afterStart s`, and 0x02 selects WAIT_START in `WAITING_FOR_START`. -/
theorem waitStartEntersReading : Obligations.WaitStartEntersReading := by
  intro s
  have hkeep := afterStart_keepsRegisters s
  exact ⟨afterStart s, rfl, rfl, rfl, rfl, fun _ => rfl, hkeep.record, hkeep.counts, hkeep.frameOut,
    fun hst => edge_of_operationOf (operationOf_stxInput hst)⟩

/-- Settles O19: the next state is `emit .none s` for every byte, and every byte but 0x02 selects WAIT_NOISE. -/
theorem waitNoiseDiscardsByte : Obligations.WaitNoiseDiscardsByte :=
  fun b _ => ⟨_, rfl, rfl, fun _ => rfl, fun hst hb =>
    edge_of_operationOf ((operationOf_waiting (i := byteInput b) rfl rfl rfl hst).trans (if_neg hb))⟩

/-- Settles O20: one case for each of the three endings of READ_END. -/
theorem readEndClosesFrame : Obligations.ReadEndClosesFrame := by
  intro s
  have hedge : ∀ {t}, execReadEnd s = .next t → s.st = .readingPayload → edge (byteInput 0x03) s = .next t :=
    fun h hst => (edge_of_operationOf (operationOf_etxInput hst)).trans h
  rcases execReadEnd_cases s with ⟨hl, e⟩ | ⟨r, hl, hx, e⟩ | ⟨hl, hx, e⟩ <;>
    simp only [ne_eq, len_toNat_eq_27_iff] at hl
  · refine ⟨_, e, rfl, rfl, fun _ => rfl, ?_, hedge e⟩
    rw [if_neg hl]
    exact ⟨⟨rfl, rfl, rfl, rfl⟩, rfl, rfl, rfl, rfl⟩
  · refine ⟨_, e, rfl, rfl, fun _ => rfl, ?_, hedge e⟩
    rw [if_pos hl, hx]
    exact ⟨s.buf.frame_get, ⟨rfl, rfl, rfl, rfl⟩, ⟨rfl, rfl⟩, rfl⟩
  · refine ⟨_, e, rfl, rfl, fun _ => rfl, ?_, hedge e⟩
    rw [if_pos hl, hx]
    exact ⟨s.buf.frame_get, ⟨rfl, rfl, rfl, rfl⟩, rfl, rfl, rfl⟩

/-- Settles O21: the byte is stored at the index `len`, or `len` is saturated. -/
theorem readDataAppendsByte : Obligations.ReadDataAppendsByte := by
  intro b s hwf
  obtain ⟨t, ht⟩ := exec_answers (.readData b) s
  have hedge (hst : s.st = .readingPayload) (hb : b ≠ 0x03) : edge (byteInput b) s = .next t :=
    (edge_of_operationOf ((operationOf_reading rfl rfl rfl hst).trans (if_neg hb))).trans ht
  obtain ⟨hnone, hkeep⟩ := exec_keepsRegisters (by simp) (by simp) ht
  refine ⟨t, ht, exec_st ht, hnone, hkeep.record, hkeep.counts, hkeep.frameOut, ?_⟩
  rcases execReadData_cases b s with ⟨hl, hi, e⟩ | ⟨hl, hi, e⟩ <;> cases e.symm.trans ht <;> rw [hi]
  · refine ⟨fun _ => appendByte_len_toNat (i := ⟨_, hl⟩) b hl, fun hge => absurd hl (by omega), fun i h => ?_,
      fun i h => ?_, by simpa using hl, hedge⟩
    · cases h
      exact ⟨rfl, Memory.read_write_same hwf _ _⟩
    · exact Memory.read_write_other _ _ fun h' => h (congrArg some h'.symm)
  · exact ⟨fun hlt => absurd hlt hl, fun _ => rfl, by simp, fun _ _ => rfl, by simpa using hl, hedge⟩

/-- Settles O33: the state an operation leaves, and the states that select it. -/
theorem stateTransitions : Obligations.StateTransitions := by
  intro i s
  obtain ⟨t, ht⟩ := exec_answers (operationOf i s) s
  refine ⟨t, ht, ?_⟩
  rw [exec_st ht]
  cases hop : operationOf i s with
  | readEnd => simp [stAfter, reading_of_operationOf_readEnd hop]
  | readData b => simp [stAfter, reading_of_operationOf_readData hop]
  | waitStart => simp [stAfter, waiting_of_operationOf_waitStart hop]
  | waitNoise b => simp [stAfter, waiting_of_operationOf_waitNoise hop]
  | reset | resync => simp [stAfter]
  | idle => simp +contextual [stAfter]

/-! ### Runs, extended one input at a time (20_memory.md R50) -/

/-- What holds of the empty run and is kept by every edge after it holds of every run: `P past t` speaks of the inputs
so far and of the state they lead to, `ok` of the inputs the run is over. -/
theorem runOn_induction {P : List Input → State → Prop} {ok : Input → Prop} {s : State}
    (start : P [] (withInputs [] s))
    (next : ∀ {past i u t}, runOn past s = .next u → P past u → ok i → edge i u = .next t → P (past ++ [i]) t)
    {is : List Input} (hok : ∀ i ∈ is, ok i) : ∃ t, runOn is s = .next t ∧ P is t := by
  induction is using List.reverseRecOn with
  | nil => exact ⟨_, runOn_nil s, start⟩
  | append_singleton past i ih =>
    obtain ⟨hpast, hi⟩ := List.forall_mem_append.mp hok
    obtain ⟨u, hu, hP⟩ := ih hpast
    obtain ⟨t, ht⟩ := exec_answers (operationOf i u) u
    exact ⟨t, (runIsSequential past i s u hu).trans ht, next hu hP (hi i (by simp)) ht⟩

/-- The same for a run whose last state is known, over any inputs. -/
theorem runOn_induction_of_next {P : List Input → State → Prop} {s t : State} {is : List Input}
    (h : runOn is s = .next t) (start : P [] (withInputs [] s))
    (next : ∀ {past i u t}, runOn past s = .next u → P past u → edge i u = .next t → P (past ++ [i]) t) : P is t := by
  obtain ⟨t', ht', hP⟩ := runOn_induction (ok := fun _ => True) start (fun hu hP _ ht => next hu hP ht) (is := is)
    fun _ _ => trivial
  cases h.symm.trans ht'
  exact hP

/-- Every run keeps `buf` in canonical form (log entry 7). -/
theorem runOn_keeps_buf_wf {s t : State} {is : List Input} (hwf : s.buf.wf) (h : runOn is s = .next t) : t.buf.wf :=
  runOn_induction_of_next (P := fun _ t => t.buf.wf) h hwf fun _ hu ht => exec_keeps_buf_wf hu ht

/-! ### The bytes of a frame so far (R85, R87) -/

/-- The bytes of `buf` below the index `len`, in order (R22). -/
def liveBytes (s : State) : List Byte := s.buf.frame.toList.take s.len.toNat

theorem liveBytes_of_len_eq_zero {s : State} (h : s.len = 0) : liveBytes s = [] := by
  simp [liveBytes, h]

/-- With `len` = 27 all of `buf` is live. -/
theorem liveBytes_of_len_eq_27 {s : State} (h : s.len = 27) : liveBytes s = s.buf.frame.toList := by
  simp [liveBytes, h]

theorem Memory.frame_write {m : Memory} (h : m.wf) (i : Fin 27) (b : Byte) :
    (m.write i b).frame = m.frame.set i b := by
  ext k hk : 1
  rw [Memory.frame_getElem, Vector.getElem_set, Memory.frame_getElem]
  split_ifs with hik
  · subst hik
    exact Memory.read_write_same h i b
  · exact Memory.read_write_other m b fun h' => hik (congrArg Fin.val h').symm

theorem liveBytes_appendByte {s : State} (hwf : s.buf.wf) (b : Byte) (hl : s.len.toNat < 27) :
    liveBytes (appendByte ⟨s.len.toNat, hl⟩ b s) = liveBytes s ++ [b] := by
  rw [liveBytes, appendByte_len_toNat b hl, appendByte_buf, Memory.frame_write hwf, Vector.toList_set,
    List.take_add_one, List.take_set_of_le (Nat.le_refl _), List.getElem?_set_self (by simpa using hl)]
  rfl

theorem validBytes_append (is js : List Input) : validBytes (is ++ js) = validBytes is ++ validBytes js := by
  simp [validBytes]

theorem validBytes_map_byteInput (bytes : List Byte) : validBytes (bytes.map byteInput) = bytes := by
  simp [validBytes, List.filter_map, Function.comp_def, byteInput]

theorem insideFrame_map_byteInput {bytes : List Byte} (h : ∀ b ∈ bytes, b ≠ 0x03) :
    ∀ i ∈ bytes.map byteInput, insideFrame i :=
  List.forall_mem_map.mpr fun b hb => ⟨rfl, rfl, fun _ => h b hb⟩

/-! ### Inside a frame -/

/-- What the cycles `past` of one frame have done since the state `s` in `READING_PAYLOAD`: `len` has counted their
bytes, up to 28, `buf` has taken them while there was room, and nothing has been reported (R85, R87, R93). -/
structure ReadsOn (s : State) (past : List Input) (t : State) : Prop where
  st : t.st = .readingPayload
  evt : past ≠ [] → t.evt = .none
  len : t.len.toNat = min (s.len.toNat + (validBytes past).length) 28
  registers : keepsRegisters s t
  live : s.buf.wf → s.len.toNat + (validBytes past).length ≤ 27 → liveBytes t = liveBytes s ++ validBytes past

theorem ReadsOn.nil {s : State} (hst : s.st = .readingPayload) (hlen : s.len.toNat ≤ 28) : ReadsOn s [] s where
  st := hst
  evt h := absurd rfl h
  len := (Nat.min_eq_left hlen).symm
  registers := .refl s
  live _ _ := (List.append_nil _).symm

/-- One more cycle inside the frame: IDLE, a byte that is stored, or a byte too many. -/
theorem ReadsOn.snoc {s u t : State} {past : List Input} {i : Input} (h : ReadsOn s past u)
    (hwf : s.buf.wf → u.buf.wf) (hi : insideFrame i) (ht : edge i u = .next t) : ReadsOn s (past ++ [i]) t := by
  have hlen := h.len
  rcases operationOf_of_insideFrame h.st hi with ⟨hop, hbytes⟩ | ⟨hop, hbytes⟩ <;>
    rw [edge_of_operationOf hop] at ht <;>
    obtain ⟨hnone, hkeep⟩ := exec_keepsRegisters (by simp) (by simp) ht <;>
    refine ⟨(exec_st ht).trans h.st, fun _ => hnone, ?_, h.registers.trans hkeep, ?_⟩ <;>
    rw [validBytes_append, hbytes]
  · cases ht
    rwa [List.append_nil]
  · cases ht
    rw [List.append_nil]
    exact h.live
  · rw [List.length_append, List.length_singleton]
    rcases execReadData_cases i.inByte u with ⟨hl, -, e⟩ | ⟨hl, -, e⟩ <;> cases e.symm.trans ht
    · rw [emit_len, appendByte_len_toNat _ hl]
      omega
    · show 28 = _
      omega
  · rw [List.length_append, List.length_singleton]
    intro hs hroom
    have hl : u.len.toNat < 27 := by omega
    cases (execReadData_of_lt i.inByte hl).symm.trans ht
    calc liveBytes (appendByte ⟨u.len.toNat, hl⟩ i.inByte u)
        = liveBytes u ++ [i.inByte] := liveBytes_appendByte (hwf hs) _ hl
      _ = liveBytes s ++ (validBytes past ++ [i.inByte]) := by rw [h.live hs (by omega), List.append_assoc]

/-- Over any number of cycles inside a frame the decoder reads on. -/
theorem runOn_insideFrame {s : State} {is : List Input} (hst : s.st = .readingPayload) (hlen : s.len.toNat ≤ 28)
    (hin : ∀ i ∈ is, insideFrame i) : ∃ t, runOn is s = .next t ∧ ReadsOn s is t :=
  runOn_induction (P := ReadsOn s) { ReadsOn.nil hst hlen with registers := withInputs_keepsRegisters [] s }
    (fun hu h hi ht => h.snoc (fun hwf => runOn_keeps_buf_wf hwf hu) hi ht) hin

/-- Settles O34: the decoder reads on, and in `READING_PAYLOAD` only cycles inside a frame select an operation that
stays there. -/
theorem readingHasNoTimeout : Obligations.ReadingHasNoTimeout := by
  intro is s hst hlen hin
  obtain ⟨t, hrun, h⟩ := runOn_insideFrame hst hlen hin
  refine ⟨t, hrun, h.st, h.evt, h.len, h.registers.record, h.registers.counts, h.registers.frameOut, fun i hi => ?_⟩
  obtain ⟨u, hu, -, -, -, hstay⟩ := stateTransitions i t
  have hleft : u.st ≠ .readingPayload := fun h' => hi ((insideFrame_iff_of_reading h.st).mpr ((hstay h.st).mp h'))
  exact ⟨u, hu, eq_waitingForStart_of_ne hleft⟩

/-! ### One frame, from the start marker to the end marker (R82, R84, R90, R91) -/

section Frame

variable {s : State} {cycles : List Input}

/-- The run over a start marker and cycles inside the frame, and the end marker after it. -/
theorem runOn_openFrame (hst : s.st = .waitingForStart) (hin : ∀ i ∈ cycles, insideFrame i) :
    ∃ u, ReadsOn (afterStart s) cycles u ∧ runOn (stxInput :: cycles ++ [etxInput]) s = execReadEnd u := by
  have hedge : edge stxInput s = .next (afterStart s) := edge_of_operationOf (operationOf_stxInput hst)
  obtain ⟨u, hrun, h⟩ := runOn_insideFrame (s := afterStart s) rfl (Nat.zero_le 28) hin
  refine ⟨u, h, ?_⟩
  rw [runIsSequential _ etxInput s u ((runOn_cons cycles hedge).trans hrun)]
  exact edge_of_operationOf (operationOf_etxInput h.st)

/-- After a start marker `len` is 27 exactly when 27 bytes have come. -/
theorem ReadsOn.len_eq_27_iff {u : State} (h : ReadsOn (afterStart s) cycles u) :
    u.len.toNat = 27 ↔ (validBytes cycles).length = 27 := by
  have hlen : u.len.toNat = min (0 + (validBytes cycles).length) 28 := h.len
  omega

/-- With `len` = 27, `buf` is the bytes since the start marker (R90). -/
theorem ReadsOn.frame_eq {u : State} (h : ReadsOn (afterStart s) cycles u) (hwf : s.buf.wf) (hl : u.len.toNat = 27) :
    u.buf.frame.toList = validBytes cycles := by
  have hroom : 0 + (validBytes cycles).length ≤ 27 := by have := h.len_eq_27_iff.mp hl; omega
  calc u.buf.frame.toList = liveBytes u := (liveBytes_of_len_eq_27 ((len_toNat_eq_27_iff u).mp hl)).symm
    _ = liveBytes (afterStart s) ++ validBytes cycles := h.live hwf hroom
    _ = validBytes cycles := by rw [liveBytes_of_len_eq_zero (s := afterStart s) rfl, List.nil_append]

theorem forall_mem_toList {P : Byte → Prop} {f : Frame} (h : ∀ i : Fin 27, P f[i]) : ∀ b ∈ f.toList, P b := by
  intro b hb
  obtain ⟨k, hk, rfl⟩ := Vector.getElem_of_mem (Vector.mem_toList_iff.mp hb)
  exact h ⟨k, hk⟩

theorem frameOfList_toList (f : Frame) : frameOfList f.toList = some f := by
  rw [frameOfList, dif_pos Vector.length_toList]
  rfl

/-- Any number of bytes but 27 is one FrameError, whatever `buf` held (R84, R91). -/
theorem runOn_wrongLength (hst : s.st = .waitingForStart) (hin : ∀ i ∈ cycles, insideFrame i)
    (hlen : (validBytes cycles).length ≠ 27) :
    ∃ t, runOn (stxInput :: cycles ++ [etxInput]) s = .next t ∧ t.st = .waitingForStart ∧ t.len = 0 ∧
      t.evt = .frameError ∧ t.frameOut = s.frameOut ∧ keepsRecord s t ∧ t.parseErrCount = s.parseErrCount ∧
      t.frameErrCount = (s.frameErrCount + 1) % 2 ^ s.errcntW := by
  obtain ⟨u, h, hrun⟩ := runOn_openFrame hst hin
  obtain ⟨hrec, ⟨hf, hp⟩, hout, hw⟩ := (afterStart_keepsRegisters s).trans h.registers
  refine ⟨_, hrun.trans (execReadEnd_of_len_ne (mt h.len_eq_27_iff.mp hlen)), rfl, rfl, rfl, hout, hrec, hp, ?_⟩
  rw [← hf, ← hw]
  rfl

end Frame

/-- Settles O44: the length decides between the two endings, and `buf` is the frame that `Extract` sees. -/
theorem frameStreamDecodes : Obligations.FrameStreamDecodes := by
  intro s cycles hst hwf hin
  by_cases hlen : (validBytes cycles).length = 27
  · obtain ⟨u, h, hrun⟩ := runOn_openFrame hst hin
    obtain ⟨hrec, ⟨hf, hp⟩, -, hw⟩ := (afterStart_keepsRegisters s).trans h.registers
    have hl := h.len_eq_27_iff.mpr hlen
    rw [← h.frame_eq hwf hl, frameOfList_toList]
    cases hx : extract u.buf.frame with
    | ok r =>
      refine ⟨_, hrun.trans (execReadEnd_of_record hl hx), rfl, rfl, rfl, hf, ?_⟩
      rw [hx]
      exact ⟨rfl, ⟨rfl, rfl, rfl, rfl⟩, hp⟩
    | parseError =>
      refine ⟨_, hrun.trans (execReadEnd_of_parseError hl hx), rfl, rfl, rfl, hf, ?_⟩
      rw [hx, ← hp, ← hw]
      exact ⟨rfl, hrec, rfl⟩
  · rw [frameOfList, dif_neg hlen]
    exact runOn_wrongLength hst hin hlen

/-- Settles O46: the second start marker is one byte of a frame of more than 27. -/
theorem startMarkerInsideFrameIsData : Obligations.StartMarkerInsideFrameIsData := by
  intro s data p hst hdata hp
  have hbytes : ∀ b ∈ data ++ 0x02 :: p.toList, b ≠ 0x03 :=
    List.forall_mem_append.mpr ⟨hdata, List.forall_mem_cons.mpr ⟨by decide, forall_mem_toList (P := (· ≠ 0x03)) hp⟩⟩
  have hlen : (validBytes ((data ++ 0x02 :: p.toList).map byteInput)).length ≠ 27 := by
    rw [validBytes_map_byteInput, List.length_append, List.length_cons, Vector.length_toList]
    omega
  obtain ⟨t, hrun, -, -, hevt, hout, hrec, hparse, hframe⟩ :=
    runOn_wrongLength hst (insideFrame_map_byteInput hbytes) hlen
  exact ⟨t, hrun, hevt, hframe, hparse, hrec, hout⟩

/-! ### The frame that is open in a state (R90) -/

/-- The inputs `is`, run from `s` to `t`, end in an open frame: a WAIT_START edge, then cycles inside the frame. -/
def OpenFrame (s : State) (is : List Input) (t : State) : Prop :=
  ∃ (before cycles : List Input) (start : Input) (u : State),
    is = before ++ start :: cycles ∧ runOn before s = .next u ∧ operationOf start u = .waitStart ∧
      (∀ i ∈ cycles, insideFrame i) ∧ ReadsOn (afterStart u) cycles t

/-- An edge after which the decoder reads is a WAIT_START that opens a frame, or one more cycle of the open one. -/
theorem OpenFrame.snoc {s u t : State} {past : List Input} {i : Input} (hwf : s.buf.wf) (hu : runOn past s = .next u)
    (h : u.st = .readingPayload → OpenFrame s past u) (ht : edge i u = .next t) (hst : t.st = .readingPayload) :
    OpenFrame s (past ++ [i]) t := by
  obtain ⟨t', ht', hopen, -, -, hstay⟩ := stateTransitions i u
  cases ht.symm.trans ht'
  cases hd : u.st with
  | waitingForStart =>
    have hop := (hopen hd).mp hst
    cases (edge_of_operationOf hop).symm.trans ht
    exact ⟨past, [], i, u, rfl, hu, hop, by simp, .nil rfl (Nat.zero_le 28)⟩
  | readingPayload =>
    have hi : insideFrame i := (insideFrame_iff_of_reading hd).mpr ((hstay hd).mp hst)
    obtain ⟨before, cycles, start, v, rfl, hv, hop, hin, hreads⟩ := h hd
    exact ⟨before, cycles ++ [i], start, v, by simp, hv, hop, List.forall_mem_append.mpr ⟨hin, by simpa using hi⟩,
      hreads.snoc (fun _ => runOn_keeps_buf_wf hwf hu) hi ht⟩

/-- Settles O45: a state in `READING_PAYLOAD` that a run reaches has an open frame, whose bytes are `buf` when there are
27 of them. -/
theorem noFrameStraddlesReset : Obligations.NoFrameStraddlesReset := by
  intro s t is last hst hwf hrun hend hlen
  have hopen : t.st = .readingPayload → OpenFrame s is t :=
    runOn_induction_of_next (P := fun past t => t.st = .readingPayload → OpenFrame s past t) hrun
      (fun h => by simp [hst] at h) fun hu h ht => OpenFrame.snoc hwf hu h ht
  obtain ⟨before, cycles, start, u, hsplit, hu, hop, hin, hreads⟩ := hopen (reading_of_operationOf_readEnd hend)
  have hl := (len_toNat_eq_27_iff t).mpr hlen
  exact ⟨before, cycles, start, u, hsplit, hu, hop, hin, (hreads.frame_eq (runOn_keeps_buf_wf hwf hu) hl).symm⟩

/-! ### Noise, and a frame after a short one (R83, R92) -/

/-- In `WAITING_FOR_START` a cycle without `rst` and without a start marker is RESYNC, IDLE or noise. -/
theorem operationOf_noise {i : Input} {s : State} (hst : s.st = .waitingForStart) (hr : i.rst = false)
    (hbyte : i.inValid = true → i.inByte ≠ 0x02) :
    operationOf i s = .resync ∨ operationOf i s = .idle ∨ operationOf i s = .waitNoise i.inByte := by
  cases hs : i.resync with
  | true => exact .inl (operationOf_resync hr hs)
  | false =>
    cases hv : i.inValid with
    | false => exact .inr (.inl (operationOf_idle hr hs hv))
    | true => exact .inr (.inr ((operationOf_waiting hr hs hv hst).trans (if_neg (hbyte hv))))

/-- What cycles without a start marker have done since the state `s`: nothing but to clear `evt`. -/
structure WaitsOn (s : State) (past : List Input) (t : State) : Prop where
  st : t.st = .waitingForStart
  len : t.len = 0
  evt : past ≠ [] → t.evt = .none
  registers : keepsRegisters s t

theorem WaitsOn.snoc {s u t : State} {past : List Input} {i : Input} (h : WaitsOn s past u)
    (hi : i.rst = false ∧ (i.inValid = true → i.inByte ≠ 0x02)) (ht : edge i u = .next t) :
    WaitsOn s (past ++ [i]) t := by
  rcases operationOf_noise h.st hi.1 hi.2 with hop | hop | hop <;>
    rw [edge_of_operationOf hop] at ht <;>
    have hkeep := h.registers.trans (exec_keepsRegisters (by simp) (by simp) ht).2 <;>
    cases ht
  · exact ⟨rfl, rfl, fun _ => rfl, hkeep⟩
  · exact ⟨h.st, h.len, fun _ => rfl, hkeep⟩
  · exact ⟨h.st, h.len, fun _ => rfl, hkeep⟩

/-- A frame of 27 data bytes gives what `Extract` gives for it, whatever state in `WAITING_FOR_START` it comes to. -/
theorem runOn_fullFrame {s : State} {p : Frame} (hst : s.st = .waitingForStart) (hwf : s.buf.wf)
    (hp : ∀ i : Fin 27, p[i] ≠ 0x03) :
    ∃ t, runOn (frameStream p.toList) s = .next t ∧ t.st = .waitingForStart ∧ t.len = 0 ∧ t.frameOut = p ∧
      ((∃ r, extract p = .ok r ∧ t.evt = .record ∧ holdsRecord t r) ∨
        (extract p = .parseError ∧ t.evt = .parseError)) := by
  obtain ⟨t, hrun, hst', hlen, h⟩ := frameStreamDecodes s (p.toList.map byteInput) hst hwf
    (insideFrame_map_byteInput (forall_mem_toList (P := (· ≠ 0x03)) hp))
  rw [validBytes_map_byteInput, frameOfList_toList] at h
  obtain ⟨hout, -, hend⟩ := h
  refine ⟨t, hrun, hst', hlen, hout, ?_⟩
  cases hx : extract p with
  | ok r =>
    rw [hx] at hend
    exact .inl ⟨r, rfl, hend.1, hend.2.1⟩
  | parseError =>
    rw [hx] at hend
    exact .inr ⟨rfl, hend.1⟩

/-- Settles O47: noise keeps everything; a short frame leaves a state in `WAITING_FOR_START`, where the frame alone
decides what comes out. -/
theorem noStartMarkerNoEvent : Obligations.NoStartMarkerNoEvent := by
  refine ⟨fun s is hst hlen hin => ?_, fun s data p hst hwf hshort hdata hp => ?_⟩
  · obtain ⟨t, hrun, h⟩ := runOn_induction (P := WaitsOn s) (s := s)
      ⟨hst, hlen, fun h => absurd rfl h, withInputs_keepsRegisters [] s⟩ (fun _ h hi ht => h.snoc hi ht) hin
    exact ⟨t, hrun, h.st, h.len, h.evt, h.registers.record, h.registers.counts, h.registers.frameOut⟩
  · have hlen : (validBytes (data.map byteInput)).length ≠ 27 := by
      rw [validBytes_map_byteInput]
      omega
    obtain ⟨t, ht, htst, htlen, -⟩ := runOn_wrongLength hst (insideFrame_map_byteInput hdata) hlen
    obtain ⟨u, hu, hust, hulen, huout, hux⟩ := runOn_fullFrame htst (runOn_keeps_buf_wf hwf ht) hp
    obtain ⟨v, hv, hvst, hvlen, hvout, hvx⟩ := runOn_fullFrame (s := State.reset) rfl reset_buf_wf hp
    have hsame : u.evt = v.evt ∧ (v.evt = .record → keepsRecord v u) := by
      rcases hux with ⟨r, hx, hue, hur⟩ | ⟨hx, hue⟩ <;> rcases hvx with ⟨r', hx', hve, hvr⟩ | ⟨hx', hve⟩ <;>
        cases hx.symm.trans hx' <;> rw [hue, hve]
      · exact ⟨rfl, fun _ => hvr.same hur⟩
      · exact ⟨rfl, by simp⟩
    exact ⟨t, u, v, ht, htst, htlen, hu, hv, hsame.1, hust.trans hvst.symm, hulen.trans hvlen.symm,
      huout.trans hvout.symm, hsame.2⟩

end Sys2Proof.Machine

namespace Sys2Proof.Machine

/-! ### The payload extractor: its checks and its decimal fields (41_payload_extractor.md R110 to R122)

The two checks are read as statements about every byte, and a decimal field as one sum over its digits, so that what a
record's numbers are, what the builder puts in and what a multiply-accumulate chain computes are facts about sums. -/

/-! #### The checks (R111, R112) -/

theorem isAscii_iff (b : Byte) : isAscii b = true ↔ b.toNat < 0x80 := by
  rw [isAscii, ← BitVec.msb_eq_getLsbD_last b, Bool.not_eq_true', BitVec.msb_eq_false_iff_two_mul_lt]
  omega

theorem isDigit_iff (b : Byte) : isDigit b = true ↔ 0x30 ≤ b.toNat ∧ b.toNat ≤ 0x39 := decide_eq_true_iff

theorem isAscii_of_isDigit {b : Byte} (h : isDigit b = true) : isAscii b = true := by
  rw [isDigit_iff] at h
  rw [isAscii_iff]
  omega

@[simp] theorem mem_payloadRange {lo hi : Nat} {i : Fin 27} : i ∈ payloadRange lo hi ↔ lo ≤ i.val ∧ i.val < hi := by
  simp [payloadRange]

theorem mem_digitPositions {i : Fin 27} :
    i ∈ digitPositions ↔ (7 ≤ i.val ∧ i.val < 20) ∨ (23 ≤ i.val ∧ i.val < 27) := by
  rw [digitPositions, List.mem_append, mem_payloadRange, mem_payloadRange]
  rfl

theorem asciiOk_iff (f : Frame) : asciiOk f = true ↔ ∀ i : Fin 27, isAscii f[i] = true := by
  simp [asciiOk]

theorem digitsOk_iff (f : Frame) : digitsOk f = true ↔ ∀ i ∈ digitPositions, isDigit f[i] = true :=
  List.all_eq_true

theorem extract_of_checks {f : Frame} (ha : asciiOk f = true) (hd : digitsOk f = true) :
    extract f = .ok (recordOf f) := by
  simp [extract, ha, hd]

theorem extract_eq_parseError_iff (f : Frame) : extract f = .parseError ↔ ¬(asciiOk f = true ∧ digitsOk f = true) := by
  cases ha : asciiOk f <;> cases hd : digitsOk f <;> simp [extract, ha, hd]

/-- Settles O38: `Extract` fails when a check fails, and a check fails at some byte. -/
theorem extractFailsExactly : Obligations.ExtractFailsExactly := by
  intro f
  rw [extract_eq_parseError_iff, not_and_or]
  refine or_congr ?_ ?_
  · simp only [asciiOk_iff, isAscii_iff, not_forall, not_lt]
  · simp only [digitsOk_iff, mem_digitPositions, isDigit_iff, not_forall, exists_prop, not_and_or, not_le]

/-! #### A decimal field as a sum (R110) -/

/-- The indices of a field of `n` bytes, counted from its first byte. -/
theorem payloadRange_eq_ofFn {lo n : Nat} (h : lo + n ≤ 27) :
    payloadRange lo (lo + n) = List.ofFn fun k : Fin n => (⟨lo + k.val, by omega⟩ : Fin 27) := by
  have hrange : (payloadRange lo (lo + n)).SortedLT := ((List.sortedLT_finRange 27).pairwise.filter _).sortedLT
  have hofFn : (List.ofFn fun k : Fin n => (⟨lo + k.val, by omega⟩ : Fin 27)).SortedLT :=
    List.sortedLT_ofFn_iff.mpr fun j k hjk => Nat.add_lt_add_left hjk lo
  refine hrange.eq_of_mem_iff hofFn fun i => ?_
  rw [mem_payloadRange, List.mem_ofFn]
  refine ⟨fun hi => ⟨⟨i.val - lo, by omega⟩, Fin.ext ?_⟩, ?_⟩
  · exact Nat.add_sub_cancel' hi.1
  · rintro ⟨k, rfl⟩
    exact ⟨Nat.le_add_right _ _, Nat.add_lt_add_left k.isLt lo⟩

theorem dec_eq_sum (f : Frame) {lo n : Nat} (h : lo + n ≤ 27) :
    dec f lo (lo + n) = ∑ k : Fin n, 10 ^ (n - 1 - k.val) * digitVal f[lo + k.val] := by
  rw [dec, payloadRange_eq_ofFn h, List.map_ofFn, List.sum_ofFn]
  refine Finset.sum_congr rfl fun k _ => ?_
  rw [Function.comp_apply, show lo + n - 1 - (lo + k.val) = n - 1 - k.val by omega]
  rfl

/-- The fold that multiplies by the base and adds the next digit is the sum of the digits weighted by their places. -/
theorem foldl_mul_add_ofFn (b : Nat) {n : Nat} (g : Fin n → Nat) :
    (List.ofFn g).foldl (fun acc d => acc * b + d) 0 = ∑ k : Fin n, b ^ (n - 1 - k.val) * g k := by
  induction n with
  | zero => rfl
  | succ n ih =>
    have hshift (k : Fin n) : b ^ (n - k.val) = b ^ (n - 1 - k.val) * b := by
      rw [← Nat.pow_succ]
      congr 1
      omega
    rw [List.ofFn_succ', List.concat_eq_append, List.foldl_append, ih, Fin.sum_univ_castSucc]
    simp [hshift, Finset.sum_mul, Nat.mul_right_comm]

theorem dec_eq_foldl (f : Frame) {lo n : Nat} (h : lo + n ≤ 27) :
    dec f lo (lo + n) = (payloadRange lo (lo + n)).foldl (fun acc i => acc * 10 + digitVal f[i]) 0 := by
  rw [dec_eq_sum f h, ← foldl_mul_add_ofFn 10 fun k : Fin n => digitVal f[lo + k.val], payloadRange_eq_ofFn h]
  simp only [← List.foldl_map (f := fun i : Fin 27 => digitVal f[i]) (g := fun acc d => acc * 10 + d), List.map_ofFn]
  rfl

/-- Settles O41: both are the sum of the digits weighted by their places. -/
theorem decIsMultiplyAccumulate : Obligations.DecIsMultiplyAccumulate :=
  fun f => ⟨dec_eq_foldl f (lo := 7) (n := 13) (by decide), dec_eq_foldl f (lo := 23) (n := 4) (by decide)⟩

/-! #### The record (R113 to R119) -/

/-- The widths of a record's numbers lose nothing of its decimal fields (R119). -/
theorem recordOf_toNat {f : Frame} (hd : ∀ i ∈ digitPositions, isDigit f[i] = true) :
    (recordOf f).amount.toNat = dec f 7 20 ∧ (recordOf f).pieceCountRaw.toNat = dec f 23 27 := by
  have ha : dec f 7 20 ≤ _ := dec_le_nines fun i hi => hd i (List.mem_append_left _ hi)
  have hp : dec f 23 27 ≤ _ := dec_le_nines fun i hi => hd i (List.mem_append_right _ hi)
  exact ⟨Nat.mod_eq_of_lt (ha.trans_lt (by decide)), Nat.mod_eq_of_lt (hp.trans_lt (by decide))⟩

/-- Settles O39: the flags compare one byte each, and each number is its field's sum. -/
theorem extractedFields : Obligations.ExtractedFields := by
  intro f r h
  obtain ⟨rfl, hd⟩ := digitsOk_of_extract_ok h
  obtain ⟨ha, hp⟩ := recordOf_toNat hd
  exact ⟨bne_iff_ne, beq_iff_eq, ha.trans (dec_eq_sum f (lo := 7) (n := 13) (by decide)),
    hp.trans (dec_eq_sum f (lo := 23) (n := 4) (by decide))⟩

/-- Settles O40: 13 and 4 digits fit the widths. -/
theorem recordRanges : Obligations.RecordRanges := by
  refine ⟨fun f r h => ?_, by decide⟩
  obtain ⟨hamount, hpiece⟩ := extracted_record_ranges h
  obtain ⟨rfl, hd⟩ := digitsOk_of_extract_ok h
  exact ⟨hamount, hpiece, recordOf_toNat hd⟩

/-! #### The positions that are read (R117) -/

theorem dec_congr {f g : Frame} {lo hi : Nat} (h : ∀ i ∈ payloadRange lo hi, f[i] = g[i]) : dec f lo hi = dec g lo hi :=
  congrArg List.sum (List.map_congr_left fun i hi => by rw [h i hi])

section ReadPositions

variable {f g : Frame} (h : ∀ i ∈ 2 :: 5 :: digitPositions, f[i] = g[i])
include h

theorem digitsOk_congr : digitsOk f = digitsOk g := by
  rw [Bool.eq_iff_iff, digitsOk_iff, digitsOk_iff]
  exact forall₂_congr fun i hi => by rw [h i (by simp [hi])]

theorem recordOf_congr : recordOf f = recordOf g := by
  obtain ⟨h2, hrest⟩ := List.forall_mem_cons.mp h
  obtain ⟨h5, hdigits⟩ := List.forall_mem_cons.mp hrest
  have hamount : amountField f = amountField g :=
    congrArg (BitVec.ofNat 44) (dec_congr fun i hi => hdigits i (List.mem_append_left _ hi))
  have hpiece : pieceField f = pieceField g :=
    congrArg (BitVec.ofNat 14) (dec_congr fun i hi => hdigits i (List.mem_append_right _ hi))
  have hmachine : machineActiveFlag f = machineActiveFlag g := congrArg (· != 0x30) h2
  have hreject : rejectSensorFlag f = rejectSensorFlag g := congrArg (· == 0x31) h5
  rw [recordOf, recordOf, hamount, hpiece, hmachine, hreject]

end ReadPositions

/-- Settles O42: both flags and all digits stand at other indices than the unused ones. -/
theorem unusedPositionsIgnored : Obligations.UnusedPositionsIgnored := by
  intro f g hf hg h
  have hread : ∀ i ∈ 2 :: 5 :: digitPositions, i ∉ ([0, 1, 3, 4, 6, 20, 21, 22] : List (Fin 27)) := by decide
  have hagree : ∀ i ∈ 2 :: 5 :: digitPositions, f[i] = g[i] := fun i hi => h i (hread i hi)
  rw [extract, extract, hf, hg, digitsOk_congr hagree, recordOf_congr hagree]

/-! #### The payload builder (R121) -/

theorem digitByte_toNat (n v k : Nat) : (digitByte n v k).toNat = 0x30 + v / 10 ^ (n - 1 - k) % 10 := by
  have hdigit : v / 10 ^ (n - 1 - k) % 10 < 10 := Nat.mod_lt _ (by decide)
  exact Nat.mod_eq_of_lt (by omega)

theorem isDigit_digitByte (n v k : Nat) : isDigit (digitByte n v k) = true := by
  rw [isDigit_iff, digitByte_toNat]
  omega

theorem digitVal_digitByte (n v k : Nat) : digitVal (digitByte n v k) = v / 10 ^ (n - 1 - k) % 10 := by
  rw [digitVal, digitByte_toNat, Nat.add_sub_cancel_left]

/-- The lowest `n` digits of a number, most significant first, weighted by their places. -/
theorem sum_digits_eq_mod (b n v : Nat) :
    ∑ k : Fin n, b ^ (n - 1 - k.val) * (v / b ^ (n - 1 - k.val) % b) = v % b ^ n := by
  induction n with
  | zero => simp [Nat.mod_one]
  | succ n ih =>
    have hrest (k : Fin n) : n + 1 - 1 - (k.val + 1) = n - 1 - k.val := by omega
    rw [Fin.sum_univ_succ, Nat.mod_pow_succ, ← ih, Nat.add_comm]
    simp only [Fin.val_succ, Fin.val_zero, hrest]
    rfl

/-- A field that holds the digits of a number that fits it has that number as its value. -/
theorem dec_eq_of_digitBytes {f : Frame} {lo n v : Nat} (hn : lo + n ≤ 27) (hv : v < 10 ^ n)
    (h : ∀ k : Fin n, f[lo + k.val] = digitByte n v k) : dec f lo (lo + n) = v :=
  calc dec f lo (lo + n)
      = ∑ k : Fin n, 10 ^ (n - 1 - k.val) * (v / 10 ^ (n - 1 - k.val) % 10) := by
        simp only [dec_eq_sum f hn, h, digitVal_digitByte]
    _ = v := by rw [sum_digits_eq_mod, Nat.mod_eq_of_lt hv]

section Payload

variable (m r : Byte) (a p : Nat) (f : Fillers)

theorem payload_amount_get (k : Fin 13) : (payload m r a p f)[7 + k.val] = digitByte 13 a k := by
  fin_cases k <;> rfl

theorem payload_piece_get (k : Fin 4) : (payload m r a p f)[23 + k.val] = digitByte 4 p k := by
  fin_cases k <;> rfl

/-- What holds of the flags, the fillers and every digit byte holds of every byte of the payload. -/
theorem forall_payload {P : Byte → Prop} (hgiven : ∀ b ∈ m :: r :: f.bytes, P b)
    (hdigit : ∀ n v k, P (digitByte n v k)) (i : Fin 27) : P (payload m r a p f)[i] := by
  simp only [Fillers.bytes, List.forall_mem_cons] at hgiven
  have hall : ∀ b ∈ (payload m r a p f).toList, P b := by
    simp [payload, hgiven, hdigit]
  exact hall _ (by simp)

theorem payload_isDigit : ∀ i ∈ digitPositions, isDigit (payload m r a p f)[i] = true := by
  have hamount : ∀ i ∈ payloadRange 7 (7 + 13), isDigit (payload m r a p f)[i] = true := by
    rw [payloadRange_eq_ofFn (by decide), List.forall_mem_ofFn_iff]
    exact fun k => (congrArg isDigit (payload_amount_get m r a p f k)).trans (isDigit_digitByte _ _ _)
  have hpiece : ∀ i ∈ payloadRange 23 (23 + 4), isDigit (payload m r a p f)[i] = true := by
    rw [payloadRange_eq_ofFn (by decide), List.forall_mem_ofFn_iff]
    exact fun k => (congrArg isDigit (payload_piece_get m r a p f k)).trans (isDigit_digitByte _ _ _)
  exact List.forall_mem_append.mpr ⟨hamount, hpiece⟩

variable {m r a p f}

/-- A payload is ASCII, its digit fields hold digits, and their values are the numbers it was built from. -/
theorem extract_payload (hascii : ∀ b ∈ m :: r :: f.bytes, isAscii b = true) (ha : a < 10 ^ 13) (hp : p < 10 ^ 4) :
    extract (payload m r a p f) =
      .ok { amount := BitVec.ofNat 44 a, pieceCountRaw := BitVec.ofNat 14 p, machineActive := m != 0x30,
            rejectSensorActive := r == 0x31 } := by
  have hasciiOk := (asciiOk_iff _).mpr
    (forall_payload m r a p f hascii fun n v k => isAscii_of_isDigit (isDigit_digitByte n v k))
  have hdigitsOk := (digitsOk_iff _).mpr (payload_isDigit m r a p f)
  have hamount : amountField (payload m r a p f) = BitVec.ofNat 44 a :=
    congrArg (BitVec.ofNat 44) (dec_eq_of_digitBytes (lo := 7) (n := 13) (by decide) ha (payload_amount_get m r a p f))
  have hpiece : pieceField (payload m r a p f) = BitVec.ofNat 14 p :=
    congrArg (BitVec.ofNat 14) (dec_eq_of_digitBytes (lo := 23) (n := 4) (by decide) hp (payload_piece_get m r a p f))
  rw [extract_of_checks hasciiOk hdigitsOk, recordOf, hamount, hpiece]
  rfl

end Payload

theorem digitByte_ne_endMarker (n v k : Nat) : digitByte n v k ≠ 0x03 := fun h =>
  absurd (h ▸ isDigit_digitByte n v k : isDigit 0x03 = true) (by decide)

/-- Settles O43: `Extract` reads the values back, and a frame without 0x03 gives what `Extract` gives for it. -/
theorem payloadRoundTrip : Obligations.PayloadRoundTrip := by
  intro m r a p f hascii ha hp
  have hx := extract_payload (a := a) (p := p) hascii (by omega) (by omega)
  refine ⟨hx, fun hmarker s hst hwf => ?_⟩
  obtain ⟨t, hrun, -, -, hout, ⟨r', hok, hevt, hamount, hpiece, hmachine, hreject⟩ | ⟨hfail, -⟩⟩ :=
    runOn_fullFrame hst hwf (forall_payload m r a p f hmarker digitByte_ne_endMarker)
  · cases hx.symm.trans hok
    refine ⟨t, hrun, hevt, ?_, ?_, hmachine, hreject, hout⟩
    · rw [hamount]
      exact Nat.mod_eq_of_lt (by omega)
    · rw [hpiece]
      exact Nat.mod_eq_of_lt (by omega)
  · cases hx.symm.trans hfail

/-! ### The FrameError counter at its largest value (R28, R122) -/

theorem bumpCount_max (w : Nat) : bumpCount w (2 ^ w - 1) = 0 := by
  rw [bumpCount, Nat.sub_add_cancel Nat.one_le_two_pow, Nat.mod_self]

/-- Settles O27: a READ_END at another length counts one FrameError and no ParseError. -/
theorem frameErrorCounterWraps : Obligations.FrameErrorCounterWraps := by
  intro s hlen hmax
  refine ⟨_, execReadEnd_of_len_ne (mt (len_toNat_eq_27_iff s).mp hlen), ?_, rfl⟩
  exact (congrArg (bumpCount s.errcntW) hmax).trans (bumpCount_max _)

end Sys2Proof.Machine

namespace Sys2Proof.Machine

/-! ### Events: what leaves one, where it leaves the decoder, and how far apart two of them are (60_exceptions.md) -/

section Events

variable {op : Instr} {i : Input} {s t : State}

/-- Only READ_END leaves an event, and it goes back to `WAITING_FOR_START` (R140, R145). -/
theorem exec_event (h : exec op s = .next t) (hevt : t.evt ≠ .none) :
    op = .readEnd ∧ t.st = .waitingForStart ∧ t.len = 0 := by
  rcases exec_output_cases h with ⟨-, rfl⟩ | ⟨ho, -, rfl⟩ | ⟨r, ho, -, -, rfl⟩ | ⟨ho, -, -, rfl⟩ | ⟨-, -, hnone, -⟩
  · exact absurd rfl hevt
  · exact ⟨ho, rfl, rfl⟩
  · exact ⟨ho, rfl, rfl⟩
  · exact ⟨ho, rfl, rfl⟩
  · exact absurd hnone hevt

/-- A frame is forwarded by a READ_END at `len` = 27 (R84). -/
theorem exec_forwards (h : exec op s = .next t) (hevt : t.evt = .record ∨ t.evt = .parseError) :
    op = .readEnd ∧ s.len = 27 := by
  rcases exec_output_cases h with ⟨-, rfl⟩ | ⟨-, -, rfl⟩ | ⟨r, ho, hl, -⟩ | ⟨ho, hl, -⟩ | ⟨-, -, hnone, -⟩
  · simp at hevt
  · simp at hevt
  · exact ⟨ho, hl⟩
  · exact ⟨ho, hl⟩
  · simp [hnone] at hevt

/-- `WAITING_FOR_START` selects no READ_END, so its edges leave no event. -/
theorem edge_evt_of_waiting (hst : s.st = .waitingForStart) (h : edge i s = .next t) : t.evt = .none := by
  by_contra hevt
  have hreading := reading_of_operationOf_readEnd (exec_event h hevt).1
  exact absurd (hst.symm.trans hreading) (by decide)

/-- No step faults or refuses (R145). -/
theorem step_answers (s : State) : ∃ t, step s = .next t :=
  exec_answers (operationOf (sampledInput s) (afterSample s)) (afterSample s)

end Events

/-- Settles O30: every operation answers, and the one that leaves an event also writes `st` and `len`. -/
theorem nothingIsFatal : Obligations.NothingIsFatal := by
  intro s
  obtain ⟨t, ht⟩ := step_answers s
  refine ⟨t, ht, fun hevt => ?_⟩
  obtain ⟨-, hst, hlen⟩ := exec_event ht hevt
  exact ⟨hst, hlen, fun i => exec_answers (operationOf i t) t⟩

/-- Settles O31: an event leaves `WAITING_FOR_START`, and the next edge starts there. -/
theorem eventsAreTwoEdgesApart : Obligations.EventsAreTwoEdgesApart := by
  intro s t h hevt
  obtain ⟨-, hst, -⟩ := exec_event h hevt
  obtain ⟨u, hu⟩ := step_answers t
  exact ⟨u, hu, edge_evt_of_waiting ((afterSample_st t).trans hst) hu⟩

/-- Settles O23: NONE, or one of the three endings of READ_END, each with its code and strobes. -/
theorem edgeLeavesEventCode : Obligations.EdgeLeavesEventCode := by
  intro i s
  obtain ⟨t, ht⟩ := exec_answers (operationOf i s) s
  refine ⟨t, ht, ?_⟩
  rcases exec_output_cases ht with ⟨ho, rfl⟩ | ⟨ho, hl, rfl⟩ | ⟨r, ho, hl, hx, rfl⟩ | ⟨ho, hl, hx, rfl⟩ |
    ⟨-, he, hnone, -⟩
  · simp [ho, State.outputs, eventCode]
  · exact ⟨fun h => absurd ho h, fun _ _ => ⟨rfl, rfl, rfl, rfl, rfl⟩, fun _ h27 => absurd h27 hl,
      fun _ h27 => absurd h27 hl⟩
  · simp [ho, hl, hx, State.outputs, eventCode]
  · simp [ho, hl, hx, State.outputs, eventCode]
  · simp [he, hnone, State.outputs, eventCode]

/-! ### The edges a frame takes (R146)

A frame that is forwarded takes a WAIT_START edge, 27 READ_DATA edges and a READ_END edge. `edgesToForward` is how many of
them are still to come; an edge takes it down by at most one, and only from 1 can an edge forward a frame. -/

/-- The least number of edges from `s` to a forwarded frame: the missing bytes and the end marker of the open frame, or,
where none is open or it is too long already, at least the 29 edges of a frame of its own. -/
def edgesToForward (s : State) : Nat :=
  match s.st with
  | .waitingForStart => 29
  | .readingPayload => if s.len.toNat ≤ 27 then 28 - s.len.toNat else 29

section EdgesToForward

variable {op : Instr} {i : Input} {s t : State}

theorem edgesToForward_waiting (hst : s.st = .waitingForStart) : edgesToForward s = 29 := by
  simp only [edgesToForward, hst]

theorem edgesToForward_reading (hst : s.st = .readingPayload) :
    edgesToForward s = if s.len.toNat ≤ 27 then 28 - s.len.toNat else 29 := by
  simp only [edgesToForward, hst]

theorem edgesToForward_congr (hst : s.st = t.st) (hlen : s.len = t.len) : edgesToForward s = edgesToForward t := by
  simp only [edgesToForward, hst, hlen]

theorem edgesToForward_le (s : State) : edgesToForward s ≤ 29 := by
  cases hst : s.st with
  | waitingForStart => exact (edgesToForward_waiting hst).le
  | readingPayload =>
    rw [edgesToForward_reading hst]
    split_ifs <;> omega

/-- A byte brings the end of a frame one edge nearer, or makes the frame too long. -/
theorem execReadData_edgesToForward {b : Byte} (h : execReadData b s = .next t) :
    edgesToForward s ≤ edgesToForward t + 1 := by
  have hkeep : t.st = s.st := exec_st (op := .readData b) h
  cases hst : s.st with
  | waitingForStart =>
    rw [edgesToForward_waiting hst, edgesToForward_waiting (hkeep.trans hst)]
    omega
  | readingPayload =>
    rw [edgesToForward_reading hst, edgesToForward_reading (hkeep.trans hst)]
    rcases execReadData_cases b s with ⟨hl, -, e⟩ | ⟨hl, -, e⟩ <;> cases e.symm.trans h
    · rw [emit_len, appendByte_len_toNat b hl]
      split_ifs <;> omega
    · show _ ≤ 29 + 1
      split_ifs <;> omega

theorem exec_edgesToForward (h : exec op s = .next t) : edgesToForward s ≤ edgesToForward t + 1 := by
  have hle := edgesToForward_le s
  cases op with
  | reset | resync | readEnd =>
    rw [edgesToForward_waiting (s := t) (exec_st h)]
    omega
  | waitStart =>
    cases h
    exact hle
  | idle | waitNoise =>
    cases h
    exact Nat.le_succ _
  | readData b => exact execReadData_edgesToForward h

/-- The end marker that forwards a frame is the last edge of that frame. -/
theorem edge_forwards_edgesToForward (h : edge i s = .next t) (hevt : t.evt = .record ∨ t.evt = .parseError) :
    edgesToForward s = 1 := by
  obtain ⟨hop, hlen⟩ := exec_forwards h hevt
  rw [edgesToForward_reading (reading_of_operationOf_readEnd hop), hlen]
  rfl

theorem afterSample_edgesToForward (s : State) : edgesToForward (afterSample s) = edgesToForward s :=
  edgesToForward_congr (afterSample_st s) (afterSample_len s)

/-- A run that ends with a forwarded frame is at least as long as that takes. -/
theorem run_forwards_edgesToForward {k : Nat} (h : Host.Core.run Sys2Proof.core (k + 1) s = .next t)
    (hevt : t.evt = .record ∨ t.evt = .parseError) : edgesToForward s ≤ k + 1 := by
  induction k generalizing s with
  | zero =>
    obtain ⟨u, hu⟩ := step_answers s
    cases (run_succ 0 hu).symm.trans h
    rw [← afterSample_edgesToForward, edge_forwards_edgesToForward hu hevt]
  | succ k ih =>
    obtain ⟨u, hu⟩ := step_answers s
    have hrest : edgesToForward u ≤ k + 1 := ih ((run_succ (k + 1) hu).symm.trans h)
    calc edgesToForward s = edgesToForward (afterSample s) := (afterSample_edgesToForward s).symm
      _ ≤ edgesToForward u + 1 := exec_edgesToForward hu
      _ ≤ k + 1 + 1 := Nat.add_le_add_right hrest 1

end EdgesToForward

/-- Settles O32: in `WAITING_FOR_START` all 29 edges of a frame are still to come. -/
theorem forwardedFramesAre29EdgesApart : Obligations.ForwardedFramesAre29EdgesApart := by
  intro s t k hst hk h hevt
  obtain ⟨n, rfl⟩ := Nat.exists_eq_add_of_le' hk
  exact (edgesToForward_waiting hst).symm.le.trans (run_forwards_edgesToForward h hevt)

end Sys2Proof.Machine

namespace Sys2Proof.Machine

/-! ### Reset, and the bytes it loses (70_reset_and_hazards.md R170, R171, R175) -/

/-- Holding `rst` = 1 for several cycles gives the same state as one cycle (R170). -/
theorem exec_reset_again {s t : State} (h : exec .reset s = .next t) : exec .reset t = .next t := by
  cases h
  rfl

/-- The first two rows of R62 take no notice of `in_valid`. -/
theorem edge_without_byte {i : Input} (s : State) (h : i.rst = true ∨ i.resync = true) :
    edge { i with inValid := false } s = edge i s :=
  dontCareInputsIgnored _ _ s rfl rfl (h.imp_right .inl)

/-- Settles O13: RESET writes every element of R170, and the first row of R62 is `rst` alone. -/
theorem resetWritesResetValues : Obligations.ResetWritesResetValues := by
  intro s
  have hframe (k : Fin 27) : (Vector.replicate 27 (0x00 : Byte))[k] = 0x00 := Vector.getElem_replicate k.isLt
  exact ⟨emit .none (enterWaiting (clearOutputs s)), rfl, rfl, rfl, rfl, rfl, rfl, rfl, rfl, hframe, rfl, rfl,
    exec_reset_again rfl, fun _ hr => edge_of_operationOf (operationOf_rst hr)⟩

/-- Settles O12: with the byte or without it the edge is a RESET edge or, with `rst` = 0, a RESYNC edge, and neither
looks at the byte. -/
theorem byteLostUnderResetOrResync : Obligations.ByteLostUnderResetOrResync := by
  intro i s h
  rw [edge_without_byte s h]
  cases hr : i.rst with
  | true =>
    obtain ⟨t, -, hst, hlen, hevt, -, -, -, -, -, hfc, hpc, -, hedge⟩ := resetWritesResetValues s
    exact ⟨t, hedge i hr, hedge i hr, hst, hlen, hevt, fun _ => ⟨hfc, hpc⟩, nofun⟩
  | false =>
    have hs : i.resync = true := h.resolve_left (by simp [hr])
    obtain ⟨t, -, hst, hlen, hevt, hbuf, hrec, hcounts, hframe, -, hedge⟩ := resyncReturnsToWaiting s
    exact ⟨t, hedge i hr hs, hedge i hr hs, hst, hlen, hevt, nofun, fun _ => ⟨hbuf, hcounts, hrec, hframe⟩⟩

/-- Settles O14: none of the three updates that make up RESET writes `buf` (log entry 4). -/
theorem resetLeavesBuffer : Obligations.ResetLeavesBuffer := by
  intro s
  have hbuf : (emit .none (enterWaiting (clearOutputs s))).buf = s.buf := by simp
  exact ⟨_, rfl, fun k => congrArg (Memory.read · k) hbuf, hbuf⟩

/-- Settles O37: `len` is 0, the empty list of cells is canonical, and the counters and record registers are 0. -/
theorem resetMeetsInvariant : Obligations.ResetMeetsInvariant where
  control := controlInv_of_len_eq_zero rfl
  buf_wf := reset_buf_wf
  frame_count := Nat.two_pow_pos _
  parse_count := Nat.two_pow_pos _
  amount_range := Nat.zero_le _
  piece_range := Nat.zero_le _

end Sys2Proof.Machine

namespace Sys2Proof.Machine

/-! ### The listed words (95_test_vectors.md section 5) -/

/-- Settles O7: thirteen fixed words, each evaluated by `decode`, row by row of R62. -/
theorem listedWordsDecode : Obligations.ListedWordsDecode := by
  unfold Obligations.ListedWordsDecode
  decide

end Sys2Proof.Machine
